-- ==== Sys2Proof/Word.lean ====
section
/-! DEFINITION. The words of the model: bytes, and the sparse table in which indexed state is held (R8, R21). -/
namespace Sys2Proof

/-- One byte (R24: the native unit is 1 byte). -/
abbrev Byte := BitVec 8

/-- Indexed state: pairs of an index and a value, indexes strictly rising, no entry equal to the
value an unlisted index holds. The operations stand in Machine/Tab.lean. -/
abbrev Tab (α : Type) := List (Nat × α)

end Sys2Proof
end

