-- ==== Sys2Proof/Syntax.lean ====
section
/-! DEFINITION. The commands: one constructor for each row of spec/opcode_table.json, with the operands the rules name.
Numbers are natural numbers; WellFormed.lean states their ranges. Where the spec leaves a choice to the device or
to the surroundings (a tag, a victim, whether an errored write landed), the command names the choice (assumption log 7). -/
namespace Sys2Proof

/-- The straps that DEV_RST_N's release samples (R432). -/
structure Straps where
  nodeSerial : Nat
  anchorAddr : Nat
  memBase : List Nat
  memSize : List Nat
  memIlv : Bool
  stashBase : List Nat
  stashSize : List Nat
  deriving DecidableEq, Repr

/-- The route by which a Maltur frame comes (R368): the byte port, or MALTUR frames from a node. -/
inductive Route where
  | bytePort
  | node (src : Nat)
  deriving DecidableEq, Repr

/-- The route to a legacy slot (R436): the doorbell port's window with its DB_ID, or the dictionary. -/
inductive Via where
  | window (id : Nat)
  | dictionary
  deriving DecidableEq, Repr

/-- The header of R303 and R304 with the payload. -/
structure Frame where
  type : Nat
  masked : Bool := false
  down : Bool := false
  cls : Nat := 0
  vl : Nat := 0
  dest : Nat := 0
  hops : Nat := 15
  src : Nat := 0
  tag : Nat := 0
  word : Nat := 0
  payload : List Byte := []
  deriving DecidableEq, Repr

/-- A Harebell beacon's payload (R312). -/
structure Beacon where
  serial : Nat
  rootSerial : Nat
  node : Nat
  nodeState : Nat
  link : Nat
  rootDist : Nat
  advertSeq : Nat
  deriving DecidableEq, Repr

/-- An advert's payload (R321): for each link the neighbour and whether it is up. -/
structure Advert where
  serial : Nat
  seq : Nat
  node : Nat
  parent : Nat
  neighbours : List (Nat × Bool)
  deriving DecidableEq, Repr

/-- An island's reset or power-down input released, with the level of its isl_PWROK as the command finds it (R351, R353; log 65). -/
structure IslandPins where
  island : Nat
  pwrok : Bool
  deriving DecidableEq, Repr

/-- The commands of spec/opcode_table.json, in its order. -/
inductive Instr where
  | doorbell (id : Nat) (write : Bool) (offset data : Nat)
  | contextLoad (ctx victim : Nat)
  | formeHeaderFetched (ctx : Nat)
  | itemAccepted (ctx : Nat)
  | burstIssue (cycle : Nat)
  | nop (ctx : Nat)
  | move (ctx : Nat)
  | fill (ctx : Nat)
  | proof (ctx : Nat)
  | sift (ctx : Nat)
  | decode (ctx : Nat)
  | part (ctx : Nat)
  | tally (ctx : Nat)
  | gather (ctx : Nat)
  | scatter (ctx : Nat)
  | loop (ctx : Nat)
  | endloop (ctx : Nat)
  | wait (ctx : Nat)
  | waitTimeout (ctx : Nat)
  | signalCounterAdd (ctx : Nat)
  | signalEvent (ctx : Nat)
  | signalStatusWord (ctx : Nat)
  | counterUpdate (ctx : Nat)
  | ruleStream (ctx : Nat)
  | ruleGroup (ctx : Nat)
  | ruleDevice (ctx : Nat)
  | ruleFabric (ctx : Nat)
  | link (ctx : Nat)
  | push (ctx : Nat)
  | popReturn (ctx : Nat)
  | popWait (ctx : Nat)
  | popTimeout (ctx : Nat)
  | endOp (ctx : Nat)
  | opComplete (ctx : Nat)
  | itemEnd (ctx : Nat)
  | readDataReturn (port tag : Nat) (err : Bool)
  | writeResponse (port tag : Nat) (err applied : Bool)
  | accessTimeout (port : Nat) (write : Bool) (tag : Nat) (applied : Bool)
  | memHoldAssert (port : Nat)
  | memHoldRelease (port : Nat)
  | memHoldLong (port : Nat)
  | throttleAssert (port : Nat)
  | throttleDeassert (port : Nat)
  | domainDownRequest (port : Nat)
  | domainDown (port : Nat)
  | domainReturn (port : Nat)
  | domainLimit (ctx : Nat)
  | arbitrationRound (port : Nat) (write : Bool) (cycle : Nat) (tags : List Nat)
  | preemptionRound (port : Nat) (write : Bool) (cycle : Nat) (tags : List Nat)
  | quotaWindowStart (port : Nat)
  | poolPiece (which : Nat)
  | poolSeal (which : Nat)
  | galleyRebuild (galley : Nat)
  | poolWaitExpiry (ctx : Nat)
  | room (galley : Nat)
  | journalReclaim
  | journalWriteRetry
  | acceptWordRetry (ctx : Nat)
  | reexecutionScan
  | twinPoint (src point : Nat)
  | twinAckTimeout
  | twinLossLimit
  | twinEntryLimit
  | twinHello (src tag epoch records : Nat)
  | twinReady (src : Nat) (ready shadowValid : Bool) (point : Nat)
  | twinShip (src tag tail : Nat) (truncate : Bool) (records : List (List Byte))
  | deviceReset (straps : Straps)
  | recover
  | drainEnd
  | surveyEnd (failed : Nat)
  | haltComplete (ctx : Nat)
  | pauseComplete (ctx : Nat)
  | abortComplete (ctx : Nat)
  | malturFrame (route : Route) (bytes : List Byte)
  | read
  | write
  | segRead
  | segWrite
  | commit
  | discard
  | notify (event : Nat)
  | objectWrite
  | modeWriteHalt
  | modeWriteConfig
  | modeWriteFlow
  | modeWriteKeep
  | modeWriteTwin
  | modeWriteDrain
  | modeWriteRecover
  | modeWriteSurvey
  | drainTargetWrite
  | galleyCreate
  | galleyFlush
  | galleyDelete
  | channelPause
  | channelResume
  | channelAbort
  | contextOpen
  | contextClose
  | contextFieldWrite
  | format
  | formatDiscard
  | takeoverFreeze
  | takeoverEnd
  | renumber
  | typeCaseCommit
  | counterClear
  | islandReset
  | islandStateRead
  | linkCtrlWrite
  | retire
  | test
  | returnIsland
  | testEnd (island : Nat) (passed : Bool)
  | keyWrite
  | proposedWrite
  | nonceRead
  | tagWrite
  | protectCommit
  | waitSnapshotRead
  | legacyShadowWrite (via : Via) (slot reg data : Nat)
  | legacyStart (via : Via) (slot data : Nat)
  | legacyAbort (via : Via) (slot data : Nat)
  | legacyRunEnd (slot : Nat)
  | linkLock (link : Nat)
  | linkLockLoss (link : Nat)
  | linkBlock (link : Nat) (bytes : List Byte)
  | harebellSend (link : Nat)
  | harebell (link : Nat) (beacon : Beacon)
  | beaconTimeout (link : Nat)
  | advertSend
  | advert (link : Nat) (adv : Advert)
  | routeRecompute
  | assignRequest (link serial preferred : Nat)
  | assignAnswer (link serial node state : Nat)
  | assignRetry
  | idHoldExpiry (serial : Nat)
  | frameForward (link : Nat) (frame : Frame)
  | escapeWait (link : Nat) (frame : Frame)
  | rdReq (frame : Frame)
  | rdData (frame : Frame)
  | wrReq (frame : Frame)
  | wrResp (frame : Frame)
  | piece (frame : Frame)
  | pieceAns (frame : Frame)
  | seal (frame : Frame)
  | sealAns (frame : Frame)
  | noticeRelease (frame : Frame)
  | noticeDiscard (frame : Frame)
  | noticeRoom (frame : Frame)
  | noticeAns (frame : Frame)
  | ruleMark (frame : Frame)
  | ruleAns (frame : Frame)
  | busy (frame : Frame)
  | busySend (src tag : Nat)
  | remoteTimeout (tag newTag : Nat)
  | routeWait (ctx : Nat)
  | islandResetAssert (island : Nat)
  | islandResetRelease (pins : IslandPins)
  | clockLost (island : Nat)
  | islandFault (island : Nat)
  | powerDownRequest (island : Nat)
  | powerDownAck (island : Nat)
  | powerDownRelease (pins : IslandPins)
  | eventRound (source wire : Nat)
  | wakeLead (stash : Nat)
  | wakeIdle (stash : Nat)
  | stashTileTaken (stash : Nat)
  | stashTileRefused (stash : Nat)
  | stashFallback (stash : Nat)
  | testWrapRequest (island : Nat)
  | scrub (offset : Nat) (correctable : Bool)
  | clockReturn (island : Nat)
  | evtPulse (wire : Nat)
  | doorbellResponseTaken (id : Nat)
  | testAccessReset
  deriving DecidableEq, Repr

end Sys2Proof
end

