-- ==== Sys2Proof/Decode.lean ====
section
/-! DEFINITION. The words the command table spells: none, since no row of spec/opcode_table.json gives bits. -/
namespace Sys2Proof

/-- The command that a word of the table spells. No row of the table gives its command any bits, so no word spells one. -/
def decodeTableWord (_nbits _w : Nat) : Option Instr := none

end Sys2Proof
end

