-- ==== Sys2Proof/Config.lean ====
section
/-! DEFINITION. The free values: what the spec leaves open and the machine goes on with. None has a body,
so no proof can use a particular value (assumption log 7). Each is applied to State.free, a count
that the step which takes a value advances. -/
namespace Sys2Proof

/-- A byte of a context's WORKING area, whose layout R391 leaves undefined. -/
opaque Config.workingByte : Nat → Nat → Byte

/-- The nonce of R400, from the device's random source. -/
opaque Config.nonce : Nat → BitVec 64

/-- The value beside reason 08h of BAD_PATTERN, which R467 gives a reason and R246 no value. -/
opaque Config.reason08Value : Nat → BitVec 48

/-- DETAIL of the BAD_OP of an implicit END, whose op has no bytes (R90, R81). -/
opaque Config.implicitEndDetail : Nat → BitVec 64

/-- A payload byte of a free cell, by the count of free values and the offset in the payload (R156). -/
opaque Config.cellByte : Nat → Nat → Byte

/-- Which stream byte an overlapped byte of one beat takes, by the count of free values and the beat's stream offset (R130). -/
opaque Config.overlap : Nat → Nat → Nat

/-- REMAINING of an entry of the wait snapshot (R396): the model holds no clock. -/
opaque Config.remaining : Nat → Nat → BitVec 32

/-- DETAIL of a BUS_FAULT of a PIECE, SEAL or RULE_MARK frame, which names no device address (R245, R306). -/
opaque Config.frameDetail : Nat → BitVec 64

/-- How many beats of a grant have been issued when its requester is masked, beyond those the port's last round shows (R234). -/
opaque Config.beatsIssued : Nat → Nat

/-- What a producer knows of a galley of another node, by node and galley number: 0 for a packet galley, else the item width, which
the spec makes known nowhere (R115, R329; assumption log 21). -/
opaque Config.remoteWidth : Nat → Nat → Nat

/-- Which ground a REFUSED of another node stands for, of those that R306 gives the one code (R184; assumption log 73). -/
opaque Config.refusedGround : Nat → Nat

end Sys2Proof
end

