-- ==== Sys2Proof/Machine/Bytes.lean ====
section
/-! DEFINITION. Byte strings: little-endian fields (R8), CRC-32C (R199, R272), SHA-256 and HMAC-SHA-256 (R401). -/
namespace Sys2Proof

/-- The number a little-endian run of bytes holds (R8). -/
def leNat : List Byte → Nat
  | [] => 0
  | b :: r => b.toNat + 256 * leNat r

/-- The n bytes, little-endian, of a number modulo 2^(8n) (R8). -/
def leBytes : Nat → Nat → List Byte
  | 0, _ => []
  | n + 1, v => BitVec.ofNat 8 v :: leBytes n (v / 256)

/-- The field of n bytes at an offset of a byte string. -/
def fieldAt (bs : List Byte) (off n : Nat) : Nat := leNat ((bs.drop off).take n)

/-- The bits [lo + n - 1 : lo] of a number (R6). -/
def bitsOf (v lo n : Nat) : Nat := v / 2 ^ lo % 2 ^ n

/-- Bit i of a number. -/
def bitOf (v i : Nat) : Bool := v / 2 ^ i % 2 = 1

/-- The two's complement value of the low n bits (R91, R125, R143). -/
def signedOf (n v : Nat) : Int :=
  if v % 2 ^ n < 2 ^ (n - 1) then ((v % 2 ^ n : Nat) : Int) else ((v % 2 ^ n : Nat) : Int) - ((2 ^ n : Nat) : Int)

/-- An integer's low n bits as a number. -/
def wrapOf (n : Nat) (v : Int) : Nat := (v % ((2 ^ n : Nat) : Int)).toNat

/-- One bit of the reflected Castagnoli CRC register. -/
def crcBit (c : BitVec 32) : BitVec 32 := if c.getLsbD 0 then (c >>> 1) ^^^ 0x82F63B78 else c >>> 1

/-- The register after one byte. -/
def crcByte (c : BitVec 32) (b : Byte) : BitVec 32 :=
  crcBit (crcBit (crcBit (crcBit (crcBit (crcBit (crcBit (crcBit (c ^^^ b.setWidth 32))))))))

/-- CRC-32C of a byte string from a seed, the result XORed with FFFF_FFFFh (R199). -/
def crcFrom (seed : Nat) (bs : List Byte) : Nat := ((bs.foldl crcByte (BitVec.ofNat 32 seed)) ^^^ 0xFFFFFFFF).toNat

/-- CRC-32C with the register seeded FFFF_FFFFh (R272). -/
def crc32c (bs : List Byte) : Nat := crcFrom 0xFFFFFFFF bs

/-- The round constants of SHA-256 (FIPS 180-4, which FIPS 198-1's HMAC-SHA-256 of R401 rests on). -/
def shaK : List (BitVec 32) :=
  [0x428a2f98, 0x71374491, 0xb5c0fbcf, 0xe9b5dba5, 0x3956c25b, 0x59f111f1, 0x923f82a4, 0xab1c5ed5] ++
  [0xd807aa98, 0x12835b01, 0x243185be, 0x550c7dc3, 0x72be5d74, 0x80deb1fe, 0x9bdc06a7, 0xc19bf174] ++
  [0xe49b69c1, 0xefbe4786, 0x0fc19dc6, 0x240ca1cc, 0x2de92c6f, 0x4a7484aa, 0x5cb0a9dc, 0x76f988da] ++
  [0x983e5152, 0xa831c66d, 0xb00327c8, 0xbf597fc7, 0xc6e00bf3, 0xd5a79147, 0x06ca6351, 0x14292967] ++
  [0x27b70a85, 0x2e1b2138, 0x4d2c6dfc, 0x53380d13, 0x650a7354, 0x766a0abb, 0x81c2c92e, 0x92722c85] ++
  [0xa2bfe8a1, 0xa81a664b, 0xc24b8b70, 0xc76c51a3, 0xd192e819, 0xd6990624, 0xf40e3585, 0x106aa070] ++
  [0x19a4c116, 0x1e376c08, 0x2748774c, 0x34b0bcb5, 0x391c0cb3, 0x4ed8aa4a, 0x5b9cca4f, 0x682e6ff3] ++
  [0x748f82ee, 0x78a5636f, 0x84c87814, 0x8cc70208, 0x90befffa, 0xa4506ceb, 0xbef9a3f7, 0xc67178f2]

/-- The first hash value of SHA-256. -/
def shaH : List (BitVec 32) :=
  [0x6a09e667, 0xbb67ae85, 0x3c6ef372, 0xa54ff53a, 0x510e527f, 0x9b05688c, 0x1f83d9ab, 0x5be0cd19]

/-- A big-endian word of four bytes. -/
def beWord (bs : List Byte) : BitVec 32 :=
  BitVec.ofNat 32 (bs.foldl (fun a b => a * 256 + b.toNat) 0)

/-- A number as n bytes, big-endian. -/
def beBytes (n v : Nat) : List Byte := (leBytes n v).reverse

/-- The next word of SHA-256's message schedule, from the last 16, newest first. -/
def shaNextW (w : List (BitVec 32)) : BitVec 32 :=
  let w2 := w.getD 1 0
  let w15 := w.getD 14 0
  let s1 := w2.rotateRight 17 ^^^ w2.rotateRight 19 ^^^ w2 >>> 10
  let s0 := w15.rotateRight 7 ^^^ w15.rotateRight 18 ^^^ w15 >>> 3
  s1 + w.getD 6 0 + s0 + w.getD 15 0

/-- The message schedule: k further words, oldest first. -/
def shaSchedule : Nat → List (BitVec 32) → List (BitVec 32)
  | 0, w => w.reverse
  | k + 1, w => shaSchedule k (shaNextW w :: w)

/-- One round of SHA-256 on the eight working variables. -/
def shaRound (v : List (BitVec 32)) (kw : BitVec 32 × BitVec 32) : List (BitVec 32) :=
  match v with
  | [a, b, c, d, e, f, g, h] =>
    let s1 := e.rotateRight 6 ^^^ e.rotateRight 11 ^^^ e.rotateRight 25
    let ch := (e &&& f) ^^^ (~~~e &&& g)
    let t1 := h + s1 + ch + kw.1 + kw.2
    let s0 := a.rotateRight 2 ^^^ a.rotateRight 13 ^^^ a.rotateRight 22
    let mj := (a &&& b) ^^^ (a &&& c) ^^^ (b &&& c)
    [t1 + (s0 + mj), a, b, c, d + t1, e, f, g]
  | v => v

/-- The hash value after one block of 64 bytes. -/
def shaBlock (h : List (BitVec 32)) (block : List Byte) : List (BitVec 32) :=
  let w := (List.range 16).map fun i => beWord ((block.drop (4 * i)).take 4)
  let v := (shaK.zip (shaSchedule 48 w.reverse)).foldl shaRound h
  (h.zip v).map fun p => p.1 + p.2

/-- The hash value after n blocks. -/
def shaBlocks : Nat → List (BitVec 32) → List Byte → List (BitVec 32)
  | 0, h, _ => h
  | n + 1, h, bs => shaBlocks n (shaBlock h (bs.take 64)) (bs.drop 64)

/-- SHA-256 of a byte string. -/
def sha256 (bs : List Byte) : List Byte :=
  let pad := (119 - bs.length % 64) % 64
  let m := bs ++ [0x80] ++ List.replicate pad 0 ++ beBytes 8 (8 * bs.length)
  ((shaBlocks (m.length / 64) shaH m).map fun w => beBytes 4 w.toNat).flatten

/-- HMAC-SHA-256 with a key of at most 64 bytes (FIPS 198-1). -/
def hmacSha256 (key msg : List Byte) : List Byte :=
  let k := key ++ List.replicate (64 - key.length) 0
  sha256 ((k.map fun b => b ^^^ 0x5c) ++ sha256 ((k.map fun b => b ^^^ 0x36) ++ msg))

end Sys2Proof
end

