-- ==== Sys2Proof/Machine/State.lean ====
section
/-! DEFINITION. The machine's state as plain data: every register, queue, buffer and mode the spec gives the block,
the queue of waiting commands, and State.reset. Each structure's docstring names the rules it holds. -/
namespace Sys2Proof.Machine

/-- The eight modes (R54). -/
inductive Mode where
  | halt | config | flow | keep | twin | drain | recover | survey
  deriving DecidableEq, Repr

/-- The channel states (R247). -/
inductive ChState where
  | closed | idle | running | waiting | pausing | paused | halted | aborting
  deriving DecidableEq, Repr

/-- The statuses of R245. -/
inductive Status where
  | done | doneZero | paused | doneMismatch | busFault | fetchFault | gatherFault | protection | badOp
  | badPattern | linkLoop | waitTimeout | domainDown | flushed | aborted | poolEmpty | nodeUnreachable
  deriving DecidableEq, Repr

/-- The named events of R394, in its order. -/
inductive Event where
  | channelHalted | badDoorbell | statusWriteFault | poolLow8 | poolLow64 | markTableFull | galleyPointer
  | galleyLost | journalFull | twinUnreachable | twinShadowLost | nodeConflict | nodeSpaceFull | memHoldLong
  | clockLost | islandFault | modeChanged | malturOverrun | protectionLocked | protectionChanged
  | journalWriteFault | drainHeld | postedWriteFault
  deriving DecidableEq, Repr

/-- A pattern descriptor with its loop advance applied (R125 to R128): COL2 is held as the IMP3 form R127 gives it. -/
structure Pattern where
  elem : Nat
  base : Nat
  c0 : Nat
  c1 : Nat
  c2 : Nat
  s0 : Int
  s1 : Int
  s2 : Int
  deriving DecidableEq, Repr

/-- A side of a data op: a pattern stream or an element list of (ADDRESS, LENGTH) (R126, R148). -/
inductive Side where
  | pattern (p : Pattern)
  | elements (l : List (Nat × Nat))
  deriving DecidableEq, Repr

/-- A term of a SIFT predicate (R142): SET is the 32 bytes at 10h. -/
structure Term where
  offset : Nat
  width : Nat
  cmp : Nat
  signed : Bool
  lo : Nat
  hi : Nat
  set : List Byte
  deriving DecidableEq, Repr

/-- A predicate descriptor (R141). -/
structure Predicate where
  j01 : Bool
  j23 : Bool
  jout : Bool
  result : Nat
  terms : List Term
  deriving DecidableEq, Repr

/-- A partition descriptor (R198). -/
structure PartDesc where
  keyOff : Nat
  keyLen : Nat
  k : Nat
  selEn : Bool
  seed : Nat
  sel : Nat
  dtable : List Nat
  deriving DecidableEq, Repr

/-- A tally descriptor (R211); `part` is its partition descriptor under KEYMODE 1. -/
structure TallyDesc where
  keyOff : Nat
  valOff : Nat
  valWidth : Nat
  signed : Bool
  dotA : Nat
  dotB : Nat
  dotEn : Bool
  aSigned : Bool
  bSigned : Bool
  selEn : Bool
  sel : Nat
  part : Option PartDesc
  deriving DecidableEq, Repr

/-- An op whose operands and operand structures have been read and checked (R124). -/
inductive Op where
  | move (src dst : Side)
  | fill (bytes : List Byte) (dst : Side)
  | proof (all : Bool) (a b : Side) (result : Nat)
  | sift (rowLen : Nat) (bitmap : Bool) (src dst : Side) (pred : Predicate)
  | decode (w : Nat) (src dst : Side) (table : List Byte)
  | part (rowLen : Nat) (src : Side) (desc : PartDesc) (result : Nat)
  | tally (rowLen : Nat) (src : Side) (desc : TallyDesc) (result : Nat)
  | gather (list dst : Side)
  | scatter (src list : Side)
  | push (galley source length : Nat) (openFlag close packet : Bool)
  deriving DecidableEq, Repr

/-- Where a segment of R131 stands: not issued, its reads on a lane, read, read and kept off its lane until its element
may be written (R150), refused and waiting in SCHED's wait table (R183), its writes presented or its pieces sent, or
complete. -/
inductive SegState where
  | ready | reading | read | kept | refused | sent | complete
  deriving DecidableEq, Repr

/-- What a waiting channel waits for (R247, R396's KIND): `last` is the counter value last read (R81), `address` the
first byte the stalled access needs and `offset` its stream offset (R264, R327). -/
inductive WaitOn where
  | counter (group counter value cond last : Nat)
  | pop (galley : Nat)
  | fullGalley (galley : Nat)
  | emptyPool (galley : Nat)
  | fullMarks (galley : Nat)
  | domain (port address offset : Nat)
  | route (node offset : Nat)
  | room (galley : Nat)
  deriving DecidableEq, Repr

/-- A segment of an op's stream, [lo, hi) (R131): its lane, rows passed or bytes that differ, the first differing
offset (R138), the delivered mask of R204 as destination numbers, the destinations whose piece of it was refused or lost and
what the segment then waits for (R183), the first PIECE_NO of its pieces by destination (R329), the pieces stored
(destination, PIECE_NO), the offset up to which its write side has been presented, and the failing read beat at which the
write side's present grant ends (R259). -/
structure Segment where
  lo : Nat
  hi : Nat
  state : SegState := .ready
  lane : Nat := 0
  got : Nat := 0
  first : Option Nat := none
  delivered : List Nat := []
  refusals : List Nat := []
  wait : Option WaitOn := none
  nums : Tab Nat := []
  stored : List (Nat × Nat) := []
  wrote : Nat := 0
  stop : Option Nat := none
  deriving DecidableEq, Repr

/-- The accumulators of one TALLY group (R212); MIN and MAX are absent while COUNT is 0. -/
structure Acc where
  count : Nat := 0
  sum : Int := 0
  min : Option Int := none
  max : Option Int := none
  dot : Int := 0
  deriving DecidableEq, Repr

/-- What an op in progress has to come: its data, the seals of its units (R205), its result block, the end of its
RULE or counter update, or nothing but its completion (R241). -/
inductive OpPhase where
  | data | sealing | result | finished
  deriving DecidableEq, Repr

/-- A fault of an op, at a stream offset (R249, R267's CAUSE and PORT); `signal` says that it is of the op's own CNT, after
the op's work. -/
structure FaultRec where
  offset : Nat := 0
  status : Status
  element : Nat := 0
  detail : Nat := 0
  cause : Nat := 0
  port : Nat := 255
  attempts : Nat := 0
  address : Nat := 0
  signal : Bool := false
  deriving DecidableEq, Repr

/-- An op in progress: the offset up to which its stream has been cut, the offset below which every segment is
complete, the segments above it, the bytes its reads returned (by stream offset × 4 + side: 0 source, 1 PROOF's
second side, 2 a segment's bytes of the selection bitmap, counted from the segment's offset), and what it has counted: SIFT's rows from row `rowsAt` on and its passes before it,
PROOF's differences below `done` (R132), TALLY's accumulators, PART's rows by destination; the push ordinals it uses
(R116, R201), its open units and the seals not yet answered (R205), the destinations that answered FLUSHED (R188), and the lanes
it has used (R453). -/
structure OpRun where
  op : Op
  serial : Nat
  total : Nat
  cut : Nat := 0
  done : Nat := 0
  segs : List Segment := []
  buf : Tab Byte := []
  phase : OpPhase := .data
  rows : List Bool := []
  rowsAt : Nat := 0
  passed : Nat := 0
  mismatches : Nat := 0
  firstMismatch : Option Nat := none
  ordBase : Nat := 0
  units : List Nat := []
  seals : List Nat := []
  flushed : List Nat := []
  element : Nat := 0
  selected : Nat := 0
  counts : Tab Nat := []
  acc : Tab Acc := []
  pieceNo : Tab Nat := []
  lanes : List Nat := []
  deriving DecidableEq, Repr

/-- A counter effect in progress (R277): the counter's group and number, addend, the value read once it has
returned, the ordinal, the position of its record, whether the sum has been written, whether it is a CNT signal (R88), the
lane that runs it (R233), whether SCHED has issued it (R220), and for a WAIT the values that increments have given the counter
since its read was asked for (R103). -/
structure CounterOp where
  group : Nat
  counter : Nat
  value : Nat
  old : Option Nat := none
  ord : Nat := 0
  jpos : Option Nat := none
  written : Bool := false
  forSignal : Bool := false
  lane : Nat := 0
  issued : Bool := false
  news : List Nat := []
  deriving DecidableEq, Repr

/-- A loop of the channel program that is open (R91 to R94). -/
structure LoopFrame where
  opIdx : Nat
  count : Nat
  pass : Nat
  srcAdv : Int
  dstAdv : Int
  deriving DecidableEq, Repr

/-- How far SCHED's fetch of a header, of an op, or of the op's next operand structure stands (R120, R123). -/
inductive Fetch where
  | none | asked | got | structs
  deriving DecidableEq, Repr

/-- The steps of an item's end (R82, R253) that have begun, in order. -/
inductive EndStep where
  | record | words | status | own | notify
  deriving DecidableEq, Repr

/-- A status word that waits for step 2 of R82 (R107): address and value. -/
structure StatusWord where
  address : Nat
  value : Nat
  deriving DecidableEq, Repr

/-- What an access at a memory port is for; `upkeep` is a write of the anchor or an image, or one that RECOVER makes (R270). -/
inductive Owner where
  | opRead (ctx serial seg : Nat)
  | opWrite (ctx serial seg : Nat)
  | result (ctx serial : Nat)
  | header (ctx : Nat)
  | fetch (ctx : Nat)
  | ending (ctx : Nat)
  | piece (ctx serial seg dest : Nat)
  | seal (ctx serial dest : Nat)
  | notice (ctx : Nat)
  | ruleMark (ctx node : Nat)
  | statusNow (ctx : Nat)
  | acceptWord (ctx : Nat)
  | counterRead (ctx : Nat)
  | counterWrite (ctx : Nat)
  | record (pos : Nat)
  | journal
  | upkeep
  | shadow (pos : Nat)
  | clear (pos : Nat)
  | settle (pos : Nat)
  | pool
  | inboundRead (src tag : Nat)
  | inboundWrite (src tag : Nat)
  | stash (port : Nat)
  deriving DecidableEq, Repr

/-- One beat at a port: its 128-aligned local address, the count of stream bytes and the side it carries, the bytes a
write enables, the stream offset and the device address of the first byte the access needs (R131, R245), and the
attempts made on it (R256). -/
structure Beat where
  addr : Nat
  len : Nat
  side : Nat
  data : List (Nat × Byte)
  offset : Nat
  first : Nat
  attempts : Nat
  deriving DecidableEq, Repr

/-- A request at a port: one side of one burst, or a single access of SCHED, POOL, JRN, a link or a stash port
(R218, R230, R236's requester numbers). `presented` is its presentation cycle once a round has seen it, `since` the first
port cycle in which it may have been presented; `holds` says that it holds its block's lock already (R260) or that its burst's first
read grant is decided (R361), `posted` that the write has left its lane before (R240): a retry, or a tile that falls back; `hung`
that its transfer hangs before a port whose clock has stopped (R347). -/
structure PortReq where
  owner : Owner
  requester : Nat
  cls : Nat
  beats : List Beat
  presented : Option Nat
  locked : Bool
  block : Option Nat
  parked : Bool
  since : Nat := 0
  holds : Bool := false
  posted : Bool := false
  hung : Bool := false
  deriving DecidableEq, Repr

/-- What an outstanding remote request serves (R305, R326): the stream bytes [offset, offset + len) of a side from
device address `first`, of which `got` have come. `busErr` marks one that waits for a route (R327), `oldTags` are those of the attempts
before (R332). -/
structure Remote where
  tag : Nat
  owner : Owner
  frame : Frame
  attempts : Nat
  offset : Nat
  len : Nat
  side : Nat
  first : Nat
  got : Nat := 0
  busErr : Bool := false
  oldTags : List Nat := []
  deriving DecidableEq, Repr

/-- A work item (R30): accepted, queued or in progress. `opCount` 0 says that the block's header is not fetched yet;
`opSerial` names the op in progress once it has issued an access (R110); `nextIdx` and `nextBlock` hold where the
program goes on after the op (R92, R95); `sent` says that the write of the present ending step has been presented,
`slotFlags` holds the FLAGS of the block at the ring slot, `need` the beats that SCHED's fetch waits for, `beats` those of the
present block that it has (R120, R123), `popped` what the POP in progress has taken (bytes, underrun) and `popWait` names POOL's
read of it that is still to come; `lostWrites` are writes
of completed ops of KEEP and TWIN whose retries ran out, with their ports, and `lostRemotes` those to other nodes (R244, R468); `quiet` suppresses the op's signals (R94); `skipAt` is where the skip of a
LOOP's body stopped at a halt: the LOOP's index, the op to go on from, the loops open there (R94); `ended` says that an END has
completed. -/
structure Item where
  slotIndex : Nat := 0
  slotAddr : Nat := 0
  seq : Nat := 0
  block : Nat := 0
  blockAddr : Nat := 0
  opCount : Nat := 0
  flags : Nat := 0
  opIdx : Nat := 0
  fetch : Fetch := .none
  structIdx : Nat := 0
  opSerial : Option Nat := none
  opDone : Bool := false
  signalled : Bool := false
  quiet : Bool := false
  skipAt : Option (Nat × Nat × Nat) := none
  nextIdx : Option Nat := none
  nextBlock : Option Nat := none
  run : Option OpRun := none
  counterOp : Option CounterOp := none
  loops : List LoopFrame := []
  delivered : Nat := 0
  moved : Bool := false
  mismatch : Option (Nat × Nat × Nat) := none
  pushOrd : Nat := 0
  popOrd : Nat := 0
  ctrOrd : Nat := 0
  openPacket : Option (Nat × Nat) := none
  packetPieces : Nat := 0
  packetBytes : Nat := 0
  words : List StatusWord := []
  reexec : Nat := 0
  ended : Bool := false
  ending : Option EndStep := none
  jpos : Option Nat := none
  endStatus : Nat := 0
  endArea : List Byte := []
  sent : Bool := false
  slotFlags : Nat := 0
  popped : Option (List Byte × Bool) := none
  popWait : Option Nat := none
  remoteRefs : List Nat := []
  need : List Nat := []
  beats : List Nat := []
  lostWrites : List (Nat × PortReq) := []
  lostRemotes : List Remote := []
  deriving DecidableEq, Repr

/-- An item that has passed the checks of R77 and waits for the durability of R33. -/
structure Accepting where
  seq : Nat
  slotIndex : Nat
  slotAddr : Nat
  flags : Nat
  jpos : Option Nat
  deriving DecidableEq, Repr

/-- A doorbell whose range is not decided: its DB_ID, the producer index it announced, the items refused so far; `empty` says
that it announces nothing and waits its turn (R72, R424). -/
structure Bell where
  id : Nat
  upto : BitVec 32
  refused : Nat
  empty : Bool := false
  deriving DecidableEq, Repr

/-- The fault record C010h of a channel (R267). -/
structure FaultRecord where
  status : Nat := 0
  cause : Nat := 0
  port : Nat := 255
  attempts : Nat := 0
  address : Nat := 0
  progress : Nat := 0
  seq : Nat := 0
  deriving DecidableEq, Repr

/-- The fields of a context that its window can set (R391, R408). -/
structure CtxFields where
  ringBase : Nat := 0
  acceptAddr : Nat := 0
  ringSize : Nat := 0
  slotSize : Nat := 0
  group : Nat := 0
  windowSet : Nat := 0
  cls : Nat := 4
  share : Nat := 0
  adoptNode : Nat := 65535
  adoptEpoch : Nat := 0
  deriving DecidableEq, Repr

/-- A context with its channel (R391, R247): the fields of the window, its marks and indexes, and the
WORKING record of the channel. `early` holds the doorbells that wait for the context to be read into the cache (R25), `late`
those that wait behind a CLOSE (R393); `headerFault` is a failed header fetch that waits for the items before it (R261). -/
structure Ctx where
  f : CtxFields := {}
  accepted : Nat := 0
  completed : Nat := 0
  producer : BitVec 32 := 0
  consumer : BitVec 32 := 0
  refused : Nat := 0
  state : ChState := .closed
  cached : Bool := false
  pauseBit : Bool := false
  fuse : Nat := 0
  next256 : Nat := 0
  header : Fetch := .none
  headerFault : Option FaultRec := none
  headerHalt : Bool := false
  exhausted : Bool := false
  bells : List Bell := []
  accepting : List Accepting := []
  items : List Item := []
  waitOn : Option WaitOn := none
  waitTimed : Bool := false
  faults : List FaultRec := []
  halting : Bool := false
  abortStatus : Nat := 65535
  acceptEpoch : Nat := 0
  acceptMode : Nat := 0
  wordRetry : Bool := false
  wordDirty : Bool := false
  closing : Bool := false
  early : List (Nat × BitVec 32) := []
  late : List (Nat × BitVec 32) := []
  record : FaultRecord := {}
  deriving DecidableEq, Repr

/-- An access whose tag is outstanding (R414); `discard` marks data that R232 discards on return. -/
structure Access where
  tag : Nat
  discard : Bool
  owner : Owner
  requester : Nat
  cls : Nat
  locked : Bool
  block : Option Nat
  beat : Beat
  deriving DecidableEq, Repr

/-- The owner of a port channel (R229, R231): its class, lock, requester, and the cycle of its last beat. -/
structure Grant where
  cls : Nat
  locked : Bool
  requester : Nat
  firstBeat : Nat
  lastBeat : Nat
  tags : List Nat
  req : PortReq
  deriving DecidableEq, Repr

/-- A scheduled round in flight (R229, R231): its sampling cycle, the request it granted with its tags, and what the round
found: the owner, the slot pointer, the pending swap, the end of port leading and the requester's LONGEST_WAIT; `swapped` says
that its wrap swapped the tables. -/
structure Flight where
  cycle : Nat
  req : PortReq
  tags : List Nat
  owner : Option Grant
  slot : Nat
  swapPending : Bool
  swapped : Bool
  leadUntil : Nat
  longest : Nat
  deriving DecidableEq, Repr

/-- One of the two request channels of a port (R228): pending queue, outstanding accesses, slot pointer, whether a
type case commit is pending on it, the cycle before which port leading holds its next grant (R223), its owner, the scheduled
round in flight, and the first cycle in which a round may sample after a preemption (R231). -/
structure PortChan where
  queue : List PortReq := []
  out : List Access := []
  retired : List Nat := []
  slot : Nat := 0
  swapPending : Bool := false
  leadUntil : Nat := 0
  owner : Option Grant := none
  flight : Option Flight := none
  cutAt : Nat := 0
  deriving DecidableEq, Repr

/-- A memory port (R223 to R237, R258, R355 to R362): its channels, the last port cycle of a round, type case copies as the
slots that differ from 80h with the last committed table that CTL keeps (R227), sidebands, quota counts, block locks and requester counters. -/
structure Port where
  rd : PortChan := {}
  wr : PortChan := {}
  cycle : Nat := 0
  caseActive : Tab Byte := []
  caseEdit : Tab Byte := []
  caseSaved : Tab Byte := []
  hold : Bool := false
  holdLongRaised : Bool := false
  throttle : Bool := false
  qreq : Bool := false
  qack : Bool := false
  quota0 : Nat := 0
  quota1 : Nat := 0
  limit0 : Nat := 0
  limit1 : Nat := 0
  blocks : List Nat := []
  masked : List Nat := []
  grants : Tab Nat := []
  waits : Tab Nat := []
  longest : Tab Nat := []
  deriving DecidableEq, Repr

/-- A producer stream (R167): node and context. -/
structure Stream where
  node : Nat := 0
  ctx : Nat := 0
  deriving DecidableEq, Repr

/-- An entry of a galley: the cells its bytes lie in, the payload offset in the first, its length without a packet's header, the
stream, sequence and ordinal of its unit, and for a held entry (R178) the item that holds it (context, sequence, pop ordinal) and
its pop mark's place in the mark table. The bytes stand in the cells. -/
structure Entry where
  cells : List Nat := []
  offset : Nat := 0
  length : Nat := 0
  stream : Stream := {}
  seq : Nat := 0
  ord : Nat := 0
  heldBy : Option (Nat × Nat × Nat) := none
  markSlot : Nat := 0
  deriving DecidableEq, Repr

/-- A reference of the head buffer (R180): cell, payload offset and length. -/
structure EntryRef where
  cell : Nat
  offset : Nat
  length : Nat
  deriving DecidableEq, Repr

/-- A unit that is open at a galley (R167 to R170): its identity, the bytes of its pieces by PIECE_NO (R329), whether
it is staged in cells, its staging cells, and the piece numbers stored (R330). -/
structure OpenUnit where
  stream : Stream
  seq : Nat
  ord : Nat
  attempt : BitVec 32
  parts : Tab (List Byte)
  staged : Bool
  cells : List Nat
  stored : List Nat
  deriving DecidableEq, Repr

/-- A push mark's state (R171, R187, R469). -/
inductive MarkState where
  | opened | sealed | flushed | aborted
  deriving DecidableEq, Repr

/-- A push mark (R171, R176) and its place in the mark table. `counted` is false for what POOL remembers of a flushed
or aborted unit without a mark in the table; `floor` is the highest ordinal of the same sequence that had sealed when the mark took
its identity; `restart` says that piece 0 of the flushed unit has come already (assumption logs 33, 85). -/
structure PushMark where
  galley : Nat
  stream : Stream
  seq : Nat
  ord : Nat
  attempt : BitVec 32
  state : MarkState
  slot : Nat := 0
  counted : Bool := true
  floor : Option Nat := none
  restart : Bool := false
  deriving DecidableEq, Repr

/-- The states of a galley (R194's 7013h:02). -/
inductive GalleyState where
  | absent | active | rebuilding | deleting
  deriving DecidableEq, Repr

/-- A piece or a seal at POOL's input (R167): galley, unit identity, flags, bytes, its number (for a seal, the count of
the unit's pieces), the producing op's serial, segment and destination on this device, and the fabric frame it came in
as (node, tag) (R329). `marked` says that its producer runs in KEEP or TWIN (R171); `rowLen` is 0 except for PART. -/
structure Piece where
  galley : Nat
  stream : Stream
  seq : Nat
  ord : Nat
  attempt : BitVec 32
  marked : Bool
  openFlag : Bool := false
  close : Bool := false
  rowLen : Nat := 0
  data : List Byte := []
  serial : Nat := 0
  seg : Nat := 0
  dest : Nat := 0
  pieceNo : Nat := 0
  remote : Option (Nat × Nat) := none
  deriving DecidableEq, Repr

/-- A seal whose writes are under way (R173): the seal, its unit, the entries it will make poppable, the cells it adds to the
chain, those of them drawn for it, and the payload bytes of the tail it leaves. -/
structure Sealing where
  piece : Piece
  unit : OpenUnit
  entries : List Entry
  cells : List Nat
  fresh : List Nat
  tailLen : Option Nat
  deriving DecidableEq, Repr

/-- A galley (R160 to R194): definition at CREATE, its entries oldest first, the open units, the head buffer (R180), the two
copies of head and tail (R190), the cells of its chain, the payload bytes in the tail where POOL knows them, the seal under way, the
last popped entry (R181), what the descriptor in memory holds (R191) and the counters of 7013h. -/
structure Galley where
  state : GalleyState := .absent
  packet : Bool := false
  width : Nat := 0
  reserve : Nat := 0
  limit : Nat := 0
  entries : List Entry := []
  units : List OpenUnit := []
  heads : List EntryRef := []
  cells : List Nat := []
  tailLen : Option Nat := none
  sealing : Option Sealing := none
  headA : Option Nat := none
  headB : Option Nat := none
  tailA : Option Nat := none
  tailB : Option Nat := none
  lastPopped : Option Entry := none
  durableHead : Option Nat := none
  durableTail : Option Nat := none
  jpos : Nat := 0
  underruns : Nat := 0
  mismatches : Nat := 0
  flushes : Nat := 0
  deriving DecidableEq, Repr

/-- POOL's answers (R183, R188, R202, R306): `refused` is REFUSED for an empty pool, `full` for a full galley, `marks` for a full
mark table (R175), `rebuilding` for a galley that rebuilds (R190). -/
inductive PoolAnswer where
  | ok | refused | full | marks | rebuilding | flushed | badPattern | noGalley
  deriving DecidableEq, Repr

/-- What POOL has to do at memory, one after another (R155, R173, R180, R191; assumption log 13): a write; a cell read, checked and
written back with bytes added, a packet's length or a new link; the begin and the end of a seal; a descriptor; a refill of the head
buffer from a cell; the payload of a POP, named by context and tag, from cells and an offset; the steps of a rebuild: the descriptor,
the pop marks, the walk from a cell to the tail, its end; and the answer of a galley command that waits for what stands before it
(R164). -/
inductive PoolJob where
  | write (addr : Nat) (bytes : List Byte)
  | rewrite (galley cell : Nat) (next : Option Nat) (add : List Byte) (plen : Option Nat)
  | sealBegin (galley : Nat)
  | sealEnd (galley : Nat)
  | desc (galley : Nat) (withSeal : Bool)
  | refill (galley cell : Nat)
  | payload (ctx tag galley : Nat) (cells : List Nat) (offset length : Nat) (underrun : Bool)
  | rebuild (galley : Nat)
  | marks (galley : Nat)
  | walk (galley cell tail : Nat)
  | rebuilt (galley : Nat)
  | answer
  deriving DecidableEq, Repr

/-- POOL (R154 to R194): the next never-allocated cell, the free list, galleys, marks, pieces and seals at its
input, the refusals that a ROOM notice is due for (node, ground; R331), its work at memory and whether the first of it is under
way, and the armed state of the POOL_LOW events (R185). -/
structure Pool where
  nextCell : Nat := 0
  freeList : List Nat := []
  galleys : Tab Galley := []
  marks : List PushMark := []
  pieces : List Piece := []
  seals : List Piece := []
  refusedBy : List (Nat × WaitOn) := []
  jobs : List PoolJob := []
  busy : Bool := false
  low8 : Bool := false
  low64 : Bool := false
  deriving DecidableEq, Repr

/-- The kinds of R274. -/
inductive RecKind where
  | accept | complete | counter | flush | epoch
  deriving DecidableEq, Repr

/-- A journal record (R274, R275), in the fields of its kind. `ctx`, `seq` and `slotIndex` serve ACCEPT, COMPLETE and
COUNTER; the others are named after the fields of R275. -/
structure Record where
  kind : RecKind
  carried : Bool := false
  void : Bool := false
  node : Nat := 0
  epoch : Nat := 0
  pos : Nat := 0
  ctx : Nat := 0
  slotIndex : Nat := 0
  seq : Nat := 0
  slotAddr : Nat := 0
  statusArea : List Byte := []
  ord : Nat := 0
  old : Nat := 0
  value : Nat := 0
  group : Nat := 0
  counter : Nat := 0
  opIndex : Nat := 0
  block : Nat := 0
  galley : Nat := 0
  entries : Nat := 0
  lowSeq : Nat := 0
  highSeq : Nat := 0
  units : Nat := 0
  event : Nat := 0
  mode : Nat := 0
  cause : Nat := 0
  prevEpoch : Nat := 0
  prevEnd : Nat := 0
  twin : Nat := 0
  deriving DecidableEq, Repr

/-- The releases that a COMPLETE record brings (R174): its position, context and sequence, and the galleys of other nodes
that its item pushed to. -/
structure Release where
  pos : Nat
  ctx : Nat
  seq : Nat
  refs : List Nat
  deriving DecidableEq, Repr

/-- The sum of a counter update that was cut after its record was issued (R277, R282): the record's position, the counter, the
sum, and the class of its context (R221). -/
structure Settle where
  pos : Nat
  group : Nat
  counter : Nat
  sum : Nat
  cls : Nat
  deriving DecidableEq, Repr

/-- JRN (R268 to R283): the next position, the records issued and not yet in the ring, the entered records the log
still holds, the anchor's fields, the TAIL last written in the anchor (R279), the reclaim point with the position of the copy
it waits for (R278), the kinds of record that wait for a position (R279), whether an episode of JOURNAL_WRITE_FAULT lasts (R270), the writes that failed (R270; one whose `posted` is set has been issued
again), the writes of anchor and images that stand behind the one under way (address and
bytes, R270, R273), the channels that wait for a scan (R282) and whether an epoch is to open first (R281), the sums of cut
counter updates that are to be written (R277), the releases held back (R287), those of every COMPLETE record that the log holds (R292;
assumption log 50), and whether RECOVER opens no epoch (R281). -/
structure Journal where
  head : Nat := 0
  tail : Nat := 0
  epoch : Nat := 0
  anchorState : Nat := 0
  anchorMode : Nat := 0
  anchorTarget : Nat := 0
  inFlight : List Record := []
  log : List Record := []
  acked : List Nat := []
  reclaim : Nat := 0
  copy : Option Nat := none
  full : List RecKind := []
  writeFault : Bool := false
  failed : List PortReq := []
  tailWritten : Nat := 0
  upkeep : List (Nat × List Byte) := []
  scanWait : List Nat := []
  epochDue : Bool := false
  settles : List Settle := []
  releases : List Release := []
  pushed : List Release := []
  lastEpoch : Bool := false
  deriving DecidableEq, Repr

/-- The twin side of JRN (R284 to R290) and takeover (R295): the twin point this device has received and whether it has
one in the open epoch, 9025h's state, the last TWIN_READY (ready, shadow valid, point); as a twin: the shadow's point,
TAIL, the TAIL in its anchor, the epoch announced, the epoch whose OPEN record set the point, positions stored above the point, the tag of the last shipment, the shipments (tag and records) that wait until a TRUNCATE
has cleared its slots (R290), the
positions whose writes a TRUNCATE has found outstanding; and the objects of a takeover. -/
structure Twin where
  point : Nat := 0
  held : Bool := false
  state : Nat := 0
  answer : Option (Bool × Bool × Nat) := none
  unreachableRaised : Bool := false
  shadowPoint : Nat := 0
  shadowHeld : Bool := false
  shadowTail : Nat := 0
  shadowAnchorTail : Nat := 0
  shadowEpoch : Nat := 0
  shadowOpen : Nat := 0
  stored : List Nat := []
  shipTag : Nat := 0
  waiting : List (Nat × List (List Byte)) := []
  gone : List Nat := []
  takeover : Nat := 0
  lostEpoch : Nat := 0
  pendingItems : List Byte := []
  streams : List Byte := []
  deriving DecidableEq, Repr

/-- The stages at which RECOVER (R292, R294), or an entry to KEEP or TWIN (R58, R284), waits: for the twin's answer, for
the VOID records, for the twin to hold the log, for the counters, for the EPOCH OPEN record to be written and shipped, for
the anchor (R273), for the status areas and acceptance words, and for POOL's rebuilds; and DRAIN for its EPOCH CLOSE record and its anchor. -/
inductive RecoverStage where
  | none | started | handshake | voiding | shipping | replaying | opening | anchoring | restoring | rebuilding | closing
  deriving DecidableEq, Repr

/-- A Maltur request body (R370) with its route. -/
structure Request where
  route : Route
  service : Nat
  txn : Nat
  index : Nat
  sub : Nat
  flags : Nat
  length : Nat
  offset : Nat
  data : List Byte
  deriving DecidableEq, Repr

/-- A response body (R372). -/
structure Response where
  service : Nat
  txn : Nat
  index : Nat
  sub : Nat
  flags : Nat
  offset : Nat
  data : List Byte
  deriving DecidableEq, Repr

/-- Ops in progress by (channel, serial): the earlier ops of a RULE (R110) or of a commit's RULE point (R383). -/
abbrev OpSet := List (Nat × Nat)

/-- What follows when the response of the request at the front returns, beside a value that comes into force (R381): nothing, the end
of a RULE point (R383), or that of a change of protection (R404). -/
inductive After where
  | none | point | protection
  deriving DecidableEq, Repr

/-- CTL (R55, R345, R346, R369 to R379, R383, R394, R395, R433, R461): `rx` holds the raw bytes of the byte port's frame in progress
(R371), `output` the frames the byte port has sent; `barred` has a bit for each central island that failed its last
survey (R462); `acted` says that the request at the front has had its effect and its response waits for JRN's
writes (R270), `due` is the RW value (index, subindex, value) that comes into force with its response (R381), `after` what else does;
`owed` counts by source and wire the posts of named events that their units still hold back (R346), `notifyDue` the events with a NOTIFY
to be sent (R379). -/
structure Ctl where
  mode : Mode := .halt
  modeCause : Nat := 1
  drainTarget : Nat := 1
  drainHeld : Nat := 0
  drainFrom : Mode := .flow
  waiting : List Request := []
  lastAnswered : Option (Request × Response) := none
  rx : Option (List Byte) := none
  output : List (List Byte) := []
  discards : Nat := 0
  lastAbort : Nat := 0
  notifyCount : Nat := 0
  notifyPending : Tab Nat := []
  notifyDue : Tab Nat := []
  eventCount : Tab Nat := []
  posts : Tab Nat := []
  owed : Tab Nat := []
  evtPending : Tab Nat := []
  evtPulses : Tab Nat := []
  rulePoint : Option OpSet := none
  holdPos : Option Nat := none
  surveyResult : Nat := 0
  surveyFailed : Nat := 0
  barred : Nat := 0
  recoverStage : RecoverStage := .none
  acted : Bool := false
  due : Option (Nat × Nat × Nat) := none
  after : After := .none
  waitSnapshot : List Byte := []
  deriving DecidableEq, Repr

/-- The dictionary's held values (R380 to R385): values by index × 256 + subindex that differ from their defaults,
the staged values, DOMAIN values, and the node sets (R332). -/
structure Dict where
  values : Tab Nat := []
  staged : Tab Nat := []
  nodeSets : Tab (List Byte) := []
  stagedSets : Tab (List Byte) := []
  commits : Nat := 0
  deriving DecidableEq, Repr

/-- The protection unit (R397 to R404). PROPOSED as the bytes that are not 0, ACTIVE as the bytes that differ from
its default image. `partials` holds the segments of a key or tag that is not yet whole, by index. -/
structure Protect where
  keyA : Option (List Byte) := none
  keyB : Option (List Byte) := none
  proposed : Tab Byte := []
  nonce : Option (BitVec 64) := none
  tagA : Option (List Byte) := none
  tagB : Option (List Byte) := none
  refusals : Nat := 0
  locked : Bool := false
  applying : Bool := false
  active : Tab Byte := []
  changes : Nat := 0
  partials : Tab (List Byte) := []
  deriving DecidableEq, Repr

/-- A legacy slot (R436 to R449): owner, shadow registers, the status fields, the working copy of CTRL and COUNT, and
the run's channel record. -/
structure Slot where
  src : Nat := 0
  dst : Nat := 0
  count : Nat := 0
  ctrl : Nat := 0
  state : Nat := 0
  code : Nat := 0
  remaining : Nat := 0
  startIgnored : Bool := false
  workCtrl : Nat := 0
  workCount : Nat := 0
  next256 : Nat := 0
  run : Option OpRun := none
  faults : List FaultRec := []
  stalled : Option WaitOn := none
  zero : Bool := false
  deriving DecidableEq, Repr

/-- A RULE in progress (R110 to R112): its op, what it holds (none: the stream alone; some group; or every op), its
earlier ops, and the nodes that have not answered. -/
structure RuleRec where
  ctx : Nat
  serial : Nat
  scope : Nat
  group : Nat
  earlier : OpSet
  nodes : List Nat
  deriving DecidableEq, Repr

/-- A doorbell port response that is presented (R420, R423); `ctx` is the context of a doorbell's. -/
structure DbResponse where
  id : Nat
  ctx : Option Nat := none
  data : Nat
  err : Bool
  deriving DecidableEq, Repr

/-- SCHED (R219 to R222, R420): rotation places, RULEs, the next op serial, the item sequences of completed ops with writes
still out (R468), doorbell accesses outstanding, responses
presented, legacy slots, lanes, and SCHED_LANE_DEMAND. -/
structure Sched where
  rotation : Tab Nat := []
  rules : List RuleRec := []
  nextSerial : Nat := 0
  dbOutstanding : List Nat := []
  dbOut : List DbResponse := []
  slots : Tab Slot := []
  lanes : Tab Nat := []
  laneDemand : Bool := false
  posted : List (Nat × Nat) := []
  postedFaults : Nat := 0
  postedAddress : Nat := 0
  postedContext : Nat := 4294967295
  postedSeq : Nat := 0
  domainStalled : List Nat := []
  deriving DecidableEq, Repr

/-- An island (R337, R349 to R353, R452 to R456); `pwrok` is the level of isl_PWROK. -/
structure Island where
  clockPaused : Bool := false
  fault : Bool := false
  retired : Bool := false
  gated : Bool := false
  inReset : Bool := true
  clockPresent : Bool := false
  faults : Nat := 0
  rstLow : Bool := false
  pdreq : Bool := false
  pdack : Bool := false
  heldOut : Bool := false
  pwrok : Bool := false
  testStatus : Nat := 0
  deriving DecidableEq, Repr

/-- A stash port (R363 to R366, R425 to R427): the wake line, whether its lead has passed, the tiles waiting oldest first, whether
the first stands refused, and the bursts that fell back. -/
structure StashPort where
  wake : Bool := false
  leadPassed : Bool := false
  tiles : List PortReq := []
  refused : Bool := false
  fallbacks : Nat := 0
  deriving DecidableEq, Repr

/-- A block in a link's replay buffer (R302): its number, how many frames begin in it, whether it goes on
with a frame that DROPPED counts (R335), its 1,008 frame bytes. -/
structure TxBlock where
  number : Nat
  begun : Nat
  cont : Bool := false
  bytes : List Byte
  deriving DecidableEq, Repr

/-- A link (R300 to R315): state of 6050h, the PCS's lock, good blocks in a row while it trains, the bad blocks since the
last tenth beacon (R314) and the counters; of the receive side the last NUMBER accepted, NAK, bytes not yet a whole frame,
frames received, credits freed by lane; of the send side the last NUMBER given, the replay buffer, the next block to send again,
frames queued, bytes of frames begun and whether DROPPED counts the last of them, credits spent, the neighbour's freed counts, blocks since one began a management
frame, beacons sent, and the block last put on Ln_TXD (none: its reset value 0); the neighbour, with the number of its end of the link. -/
structure Link where
  state : Nat := 0
  lock : Bool := false
  good : Nat := 0
  errs : Nat := 0
  crcErrors : Nat := 0
  replays : Nat := 0
  dropped : Nat := 0
  rxNumber : Nat := 0
  nak : Bool := false
  rxBytes : List Byte := []
  rx : List Frame := []
  freed : Tab Nat := []
  txNumber : Nat := 0
  replay : List TxBlock := []
  resend : Option Nat := none
  tx : List Frame := []
  txBytes : List Byte := []
  txCounted : Bool := false
  spent : Tab Nat := []
  peerFreed : Tab Nat := []
  sinceMgmt : Nat := 15
  beacons : Nat := 0
  txBlock : List Byte := []
  peerSerial : Nat := 0
  peerNode : Nat := 4095
  peerRoot : Nat := 0
  peerDist : Nat := 255
  peerLink : Nat := 0
  deriving DecidableEq, Repr

/-- A route table entry (R322). -/
structure RouteEntry where
  primary : Nat := 0
  alternate : Nat := 0
  hops : Nat := 0
  onAlt : Bool := false
  primaryValid : Bool := false
  altValid : Bool := false
  deriving DecidableEq, Repr

/-- The fabric (R312 to R335): identifier, the lowest serial known, the serials of assigners that have left (R316), adverts by serial, the identifiers given as assigner,
the links ASSIGN requests came in on, outstanding requests, requests held in RECOVER with the links they came in on, requests in service, markers waiting. -/
structure Fabric where
  nodeState : Nat := 0
  nodeId : Option Nat := none
  rootSerial : Option Nat := none
  departed : List Nat := []
  advertSeq : Nat := 1
  links : Tab Link := []
  adverts : Tab Advert := []
  routes : Tab RouteEntry := []
  assigned : List (Nat × Nat) := []
  returns : Tab Nat := []
  remotes : List Remote := []
  nextTag : Nat := 0
  held : List (Nat × Frame) := []
  serving : List Frame := []
  markers : List (Nat × Nat × OpSet) := []
  deriving DecidableEq, Repr

/-- The scrubber's registers (R463, R465). -/
structure Scrubber where
  corrected : Nat := 0
  uncorrected : Nat := 0
  address : Nat := 0
  deriving DecidableEq, Repr

/-- The whole state. `pending` is the queue of commands and `free` the count that selects free values: both are the
model's own. -/
structure State where
  pending : List Instr
  free : Nat
  straps : Straps
  mem : List Host.Cell
  ctl : Ctl
  dict : Dict
  prot : Protect
  ctxs : Tab Ctx
  sched : Sched
  ports : Tab Port
  pool : Pool
  jrn : Journal
  twin : Twin
  fab : Fabric
  islands : Tab Island
  stash : Tab StashPort
  scrub : Scrubber
  tapReset : Bool
  deriving DecidableEq, Repr

/-- Why the machine stops. -/
inductive Fault where
  /-- Raised by CLOCK_LOST of island 0: "CLK_CTL cannot be gated, and a loss of CLK_CTL is a loss of the device"
  (R339). Safe: the spec gives no behaviour after it. -/
  | deviceLost
  deriving DecidableEq, Repr

/-- Why a command has no meaning in the model. -/
inductive Refusal where
  /-- Raised by an arm of exec for a command that has no meaning yet; safe. -/
  | notModelled (mnemonic : String)
  deriving DecidableEq, Repr

/-- Straps of the machine right after reset: the spec gives no values (DESIGN CHOICE 0, unsafe, assumption log 9);
DEVICE_RESET samples the integrator's. -/
def Straps.reset : Straps :=
  { nodeSerial := 0, anchorAddr := 0, memBase := [0, 0, 0, 0, 0, 0, 0, 0], memSize := [0, 0, 0, 0, 0, 0, 0, 0],
    memIlv := false, stashBase := [0, 0, 0, 0], stashSize := [0, 0, 0, 0] }

/-- The machine right after reset (R26, R54, R55, R69): HALT, every context closed, every object at its default. -/
def State.reset : State :=
  { pending := [], free := 0, straps := Straps.reset, mem := [], ctl := {}, dict := {}, prot := {}, ctxs := [],
    sched := {}, ports := [], pool := {}, jrn := {}, twin := {}, fab := {}, islands := [], stash := [],
    scrub := {}, tapReset := false }

end Sys2Proof.Machine
end

