-- ==== Sys2Proof/Machine/Objects.lean ====
section
/-! DEFINITION. The object dictionary's tables (R122, R194, R239, R267, R298, R335, R367, R405 to R408, R441, R465):
index and subindex ranges, types, access classes and defaults. -/
namespace Sys2Proof.Machine

/-- The types of R380. -/
inductive OType where
  | u8 | u16 | u32 | u64 | bool8 | str | domain
  deriving DecidableEq, Repr

/-- The access classes of R381. -/
inductive AClass where
  | ro | rw | wo | rwc | rws
  deriving DecidableEq, Repr

/-- A row of an object table: index range, subindex range, type, access class, default, and whether the notes allow
writes in CONFIG only. -/
structure ObjDef where
  ilo : Nat
  ihi : Nat
  slo : Nat
  shi : Nat
  type : OType
  cls : AClass
  dflt : Nat
  configOnly : Bool
  deriving DecidableEq, Repr

/-- The size in bytes of a type (R380); DOMAIN and STR have none of their own. -/
def OType.size : OType → Nat
  | .u8 => 1
  | .u16 => 2
  | .u32 => 4
  | .u64 => 8
  | .bool8 => 1
  | .str => 0
  | .domain => 0

/-- The objects of R55 (02_guarantee_and_modes.md). -/
def objectsR55 : List ObjDef := [
  ⟨0x2000, 0x2000, 0x00, 0x00, .u8, .rw, 0, false⟩,  -- MODE
  ⟨0x2001, 0x2001, 0x00, 0x00, .u8, .rw, 1, false⟩,  -- DRAIN_TARGET
  ⟨0x2002, 0x2002, 0x00, 0x00, .u8, .ro, 1, false⟩,  -- MODE_CAUSE
  ⟨0x2003, 0x2003, 0x00, 0x00, .u8, .ro, 0, false⟩  -- DRAIN_HELD
]

/-- The objects of R122 (03_formes.md). -/
def objectsR122 : List ObjDef := [
  ⟨0x4011, 0x4011, 0x00, 0x00, .u8, .rw, 64, false⟩,  -- LINK_FUSE
  ⟨0xA100, 0xA100, 0x00, 0x00, .u64, .rwc, 0, false⟩  -- COUNTER_BASE
]

/-- The objects of R194 (05_galleys_and_pool.md). -/
def objectsR194 : List ObjDef := [
  ⟨0x7000, 0x7000, 0x00, 0x00, .u64, .rws, 0, true⟩,  -- POOL_BASE
  ⟨0x7001, 0x7001, 0x00, 0x00, .u64, .rws, 0, true⟩,  -- POOL_CELLS
  ⟨0x7002, 0x7002, 0x00, 0x00, .u64, .rws, 0, true⟩,  -- GALLEY_BASE
  ⟨0x7003, 0x7003, 0x00, 0x00, .u64, .rws, 0, true⟩,  -- MARK_BASE
  ⟨0x7004, 0x7004, 0x00, 0x00, .u32, .rws, 4194304, true⟩,  -- MARK_ENTRIES
  ⟨0x7005, 0x7005, 0x00, 0x00, .u32, .rw, 10000, false⟩,  -- POOL_WAIT
  ⟨0x7006, 0x7006, 0x00, 0x00, .u64, .ro, 0, false⟩,  -- SHARED_FREE
  ⟨0x7007, 0x7007, 0x00, 0x00, .u64, .ro, 0, false⟩,  -- RESERVED_UNUSED
  ⟨0x7008, 0x7008, 0x00, 0x00, .u32, .ro, 0, false⟩,  -- GALLEY_COUNT
  ⟨0x7009, 0x7009, 0x00, 0x00, .u32, .ro, 0, false⟩,  -- MARKS_USED
  ⟨0x7010, 0x7010, 0x00, 0x00, .u32, .rw, 0, false⟩,  -- GALLEY_SELECT
  ⟨0x7011, 0x7011, 0x01, 0x01, .u8, .rw, 0, false⟩,  -- TYPE
  ⟨0x7011, 0x7011, 0x02, 0x02, .u16, .rw, 0, false⟩,  -- WIDTH
  ⟨0x7011, 0x7011, 0x03, 0x03, .u32, .rw, 0, false⟩,  -- RESERVE
  ⟨0x7011, 0x7011, 0x04, 0x04, .u32, .rw, 0, false⟩,  -- LIMIT
  ⟨0x7012, 0x7012, 0x00, 0x00, .u8, .wo, 0, false⟩,  -- COMMAND
  ⟨0x7013, 0x7013, 0x01, 0x01, .bool8, .ro, 1, false⟩,  -- EMPTY
  ⟨0x7013, 0x7013, 0x02, 0x02, .u8, .ro, 0, false⟩,  -- STATE
  ⟨0x7013, 0x7013, 0x03, 0x03, .u32, .ro, 0, false⟩,  -- DEPTH
  ⟨0x7013, 0x7013, 0x04, 0x04, .u32, .ro, 0, false⟩,  -- HELD
  ⟨0x7013, 0x7013, 0x05, 0x05, .u32, .ro, 0, false⟩,  -- CELLS
  ⟨0x7013, 0x7013, 0x06, 0x06, .u32, .ro, 0, false⟩,  -- UNDERRUNS
  ⟨0x7013, 0x7013, 0x07, 0x07, .u16, .ro, 0, false⟩,  -- POINTER_MISMATCHES
  ⟨0x7013, 0x7013, 0x08, 0x08, .u32, .ro, 0, false⟩  -- FLUSHES
]

/-- The objects of R239 (07_scheduling_and_arbitration.md). -/
def objectsR239 : List ObjDef := [
  ⟨0x4020, 0x4020, 0x00, 0x00, .u16, .rw, 0, false⟩,  -- QUOTA_0
  ⟨0x4021, 0x4021, 0x00, 0x00, .u16, .rw, 0, false⟩,  -- QUOTA_1
  ⟨0x4030, 0x4030, 0x00, 0x00, .u8, .rw, 3, false⟩,  -- PREEMPT_CLASSES
  ⟨0x4031, 0x4031, 0x00, 0x00, .u8, .rw, 0, false⟩,  -- JRN_CLASS
  ⟨0x4032, 0x4032, 0x00, 0x00, .u8, .rw, 1, false⟩,  -- POOL_CLASS
  ⟨0x4034, 0x4034, 0x00, 0x00, .u8, .rw, 128, false⟩,  -- THROTTLE_SHARE
  ⟨0x4040, 0x4040, 0x01, 0x08, .domain, .rw, 0, false⟩,  -- TYPE_CASE_EDIT
  ⟨0x4041, 0x4041, 0x00, 0x00, .u8, .wo, 0, false⟩,  -- TYPE_CASE_COMMIT
  ⟨0x4042, 0x4042, 0x01, 0x08, .domain, .ro, 0, false⟩,  -- TYPE_CASE_ACTIVE
  ⟨0x4043, 0x4043, 0x00, 0x00, .u8, .ro, 0, false⟩,  -- TYPE_CASE_PENDING
  ⟨0x4050, 0x4050, 0x01, 0x08, .u8, .ro, 0, false⟩,  -- PENDING_DEPTH
  ⟨0xA200, 0xA207, 0x01, 0x34, .u64, .ro, 0, false⟩,  -- GRANTS
  ⟨0xA210, 0xA217, 0x01, 0x34, .u64, .ro, 0, false⟩,  -- WAITS
  ⟨0xA220, 0xA227, 0x01, 0x34, .u32, .ro, 0, false⟩,  -- LONGEST_WAIT
  ⟨0xA22F, 0xA22F, 0x00, 0x00, .u8, .wo, 0, false⟩  -- COUNTER_CLEAR
]

/-- The objects of R267 (08_completion_and_faults.md). -/
def objectsR267 : List ObjDef := [
  ⟨0x3100, 0x3100, 0x00, 0x00, .u32, .rw, 200, false⟩,  -- ACCESS_TIMEOUT
  ⟨0x3101, 0x3101, 0x01, 0x08, .u16, .ro, 0, false⟩,  -- RETIRED_TAGS
  ⟨0x3102, 0x3102, 0x01, 0x01, .u32, .ro, 0, false⟩,  -- POSTED_FAULTS
  ⟨0x3102, 0x3102, 0x02, 0x02, .u64, .ro, 0, false⟩,  -- POSTED_ADDRESS
  ⟨0x3102, 0x3102, 0x03, 0x03, .u32, .ro, 4294967295, false⟩,  -- POSTED_CONTEXT
  ⟨0x3102, 0x3102, 0x04, 0x04, .u64, .ro, 0, false⟩,  -- POSTED_SEQ
  ⟨0x3130, 0x3130, 0x00, 0x00, .u32, .rw, 10000, false⟩,  -- DOMAIN_LIMIT
  ⟨0x4010, 0x4010, 0x00, 0x00, .u8, .rw, 3, false⟩,  -- BUS_RETRIES
  ⟨0xC001, 0xC001, 0x00, 0x00, .u8, .wo, 0, false⟩,  -- CHANNEL_COMMAND
  ⟨0xC002, 0xC002, 0x00, 0x00, .u8, .ro, 0, false⟩,  -- CHANNEL_STATE
  ⟨0xC010, 0xC010, 0x01, 0x01, .u16, .ro, 0, false⟩,  -- STATUS
  ⟨0xC010, 0xC010, 0x02, 0x02, .u8, .ro, 0, false⟩,  -- CAUSE
  ⟨0xC010, 0xC010, 0x03, 0x03, .u8, .ro, 255, false⟩,  -- PORT
  ⟨0xC010, 0xC010, 0x04, 0x04, .u8, .ro, 0, false⟩,  -- ATTEMPTS
  ⟨0xC010, 0xC010, 0x05, 0x05, .u64, .ro, 0, false⟩,  -- ADDRESS
  ⟨0xC010, 0xC010, 0x06, 0x06, .u64, .ro, 0, false⟩,  -- PROGRESS
  ⟨0xC010, 0xC010, 0x07, 0x07, .u64, .ro, 0, false⟩  -- SEQ
]

/-- The objects of R298 (09_journal_and_twin.md). -/
def objectsR298 : List ObjDef := [
  ⟨0x9000, 0x9000, 0x00, 0x00, .u64, .ro, 0, false⟩,  -- ANCHOR_ADDR
  ⟨0x9001, 0x9001, 0x00, 0x00, .u64, .rws, 0, true⟩,  -- RING_BASE
  ⟨0x9002, 0x9002, 0x00, 0x00, .u32, .rws, 0, true⟩,  -- RING_RECORDS
  ⟨0x9003, 0x9003, 0x00, 0x00, .u64, .rws, 0, true⟩,  -- CONFIG_IMAGE
  ⟨0x9004, 0x9004, 0x00, 0x00, .u64, .rws, 0, true⟩,  -- CONTEXT_IMAGE
  ⟨0x9005, 0x9005, 0x00, 0x00, .u32, .rw, 65536, false⟩,  -- COUNTER_RESERVE
  ⟨0x9006, 0x9006, 0x00, 0x00, .u8, .wo, 0, false⟩,  -- FORMAT
  ⟨0x9010, 0x9010, 0x00, 0x00, .u64, .ro, 0, false⟩,  -- HEAD
  ⟨0x9011, 0x9011, 0x00, 0x00, .u64, .ro, 0, false⟩,  -- TAIL
  ⟨0x9012, 0x9012, 0x00, 0x00, .u32, .ro, 0, false⟩,  -- LIVE_ITEMS
  ⟨0x9013, 0x9013, 0x00, 0x00, .u32, .ro, 0, false⟩,  -- EPOCH
  ⟨0x9014, 0x9014, 0x00, 0x00, .u16, .ro, 0, false⟩,  -- IN_FLIGHT
  ⟨0x9020, 0x9020, 0x00, 0x00, .u16, .rws, 0, true⟩,  -- TWIN_NODE
  ⟨0x9021, 0x9021, 0x00, 0x00, .u32, .rw, 1000, false⟩,  -- TWIN_ENTRY_LIMIT
  ⟨0x9022, 0x9022, 0x00, 0x00, .u32, .rw, 100, false⟩,  -- TWIN_ACK_TIMEOUT
  ⟨0x9023, 0x9023, 0x00, 0x00, .u32, .rw, 10000, false⟩,  -- TWIN_LOSS_LIMIT
  ⟨0x9024, 0x9024, 0x00, 0x00, .u64, .ro, 0, false⟩,  -- TWIN_POINT
  ⟨0x9025, 0x9025, 0x00, 0x00, .u8, .ro, 0, false⟩,  -- TWIN_STATE
  ⟨0x9030, 0x9030, 0x00, 0x00, .u16, .rws, 65535, true⟩,  -- SHADOW_PARTNER
  ⟨0x9031, 0x9031, 0x00, 0x00, .u64, .rws, 0, true⟩,  -- SHADOW_BASE
  ⟨0x9032, 0x9032, 0x00, 0x00, .u32, .rws, 0, true⟩,  -- SHADOW_RECORDS
  ⟨0x9033, 0x9033, 0x00, 0x00, .u64, .ro, 0, false⟩,  -- SHADOW_POINT
  ⟨0x9040, 0x9040, 0x00, 0x00, .u8, .wo, 0, false⟩,  -- TAKEOVER
  ⟨0x9041, 0x9041, 0x00, 0x00, .u8, .ro, 0, false⟩,  -- TAKEOVER_STATE
  ⟨0x9041, 0x9041, 0x01, 0x01, .u32, .ro, 0, false⟩,  -- LOST_EPOCH
  ⟨0x9042, 0x9042, 0x00, 0x00, .domain, .ro, 0, false⟩,  -- PENDING_ITEMS
  ⟨0x9043, 0x9043, 0x00, 0x00, .domain, .ro, 0, false⟩  -- STREAMS
]

/-- The objects of R335 (10_fabric.md). -/
def objectsR335 : List ObjDef := [
  ⟨0x6000, 0x6000, 0x00, 0x00, .u64, .ro, 0, false⟩,  -- SERIAL
  ⟨0x6001, 0x6001, 0x00, 0x00, .u16, .rwc, 65535, false⟩,  -- PREFERRED_NODE
  ⟨0x6002, 0x6002, 0x00, 0x00, .u8, .wo, 0, false⟩,  -- RENUMBER
  ⟨0x6003, 0x6003, 0x00, 0x00, .u8, .ro, 0, false⟩,  -- NODE_STATE
  ⟨0x6004, 0x6004, 0x00, 0x00, .u16, .ro, 65535, false⟩,  -- NODE_ID
  ⟨0x6005, 0x6005, 0x00, 0x00, .u32, .rw, 10000, false⟩,  -- ID_HOLD
  ⟨0x6006, 0x6006, 0x00, 0x00, .u64, .ro, 0, false⟩,  -- ASSIGNER
  ⟨0x6007, 0x6007, 0x00, 0x00, .u16, .ro, 0, false⟩,  -- NODES_PRESENT
  ⟨0x6010, 0x6010, 0x00, 0x00, .u16, .rw, 0, false⟩,  -- ROUTE_SELECT
  ⟨0x6011, 0x6011, 0x00, 0x00, .u32, .ro, 0, false⟩,  -- ROUTE_ENTRY
  ⟨0x6020, 0x6020, 0x00, 0x00, .u8, .rwc, 0, false⟩,  -- LINK_RATE
  ⟨0x6030, 0x6030, 0x00, 0x00, .u16, .rws, 65535, false⟩,  -- INBOUND_SET
  ⟨0x6040, 0x6040, 0x00, 0x00, .u32, .rw, 50, false⟩,  -- REMOTE_TIMEOUT
  ⟨0x6041, 0x6041, 0x00, 0x00, .u32, .rw, 1000, false⟩,  -- ROUTE_WAIT
  ⟨0x6042, 0x6042, 0x00, 0x00, .u32, .rw, 2000, false⟩,  -- ESCAPE_WAIT
  ⟨0x6043, 0x6043, 0x00, 0x00, .u16, .rw, 64, false⟩,  -- LINK_ERR_LIMIT
  ⟨0x6050, 0x6050, 0x01, 0x10, .u8, .ro, 0, false⟩,  -- LINK_STATE
  ⟨0x6051, 0x6051, 0x01, 0x10, .u8, .rw, 0, false⟩,  -- LINK_CTRL
  ⟨0x6052, 0x6052, 0x01, 0x10, .u32, .ro, 0, false⟩,  -- CRC_ERRORS
  ⟨0x6053, 0x6053, 0x01, 0x10, .u32, .ro, 0, false⟩,  -- REPLAYS
  ⟨0x6054, 0x6054, 0x01, 0x10, .u32, .ro, 0, false⟩,  -- DROPPED
  ⟨0x6200, 0x6200, 0x00, 0x00, .u8, .rw, 0, false⟩,  -- NODE_SET_SELECT
  ⟨0x6201, 0x6201, 0x00, 0x00, .domain, .rws, 0, false⟩  -- NODE_SET
]

/-- The objects of R367 (11_islands_crossings_power.md). -/
def objectsR367 : List ObjDef := [
  ⟨0x3000, 0x3000, 0x01, 0x2F, .u8, .ro, 2, false⟩,  -- ISLAND_STATE
  ⟨0x3001, 0x3001, 0x01, 0x2F, .u8, .wo, 0, false⟩,  -- ISLAND_RESET
  ⟨0x3002, 0x3002, 0x01, 0x2F, .u16, .ro, 0, false⟩,  -- ISLAND_FAULTS
  ⟨0x3120, 0x3120, 0x00, 0x00, .u32, .rw, 100, false⟩,  -- HOLD_LONG
  ⟨0x3131, 0x3131, 0x00, 0x00, .u8, .ro, 0, false⟩,  -- DOMAIN_STATE
  ⟨0x3300, 0x3300, 0x01, 0x04, .u16, .rws, 64, true⟩,  -- STASH_TILE
  ⟨0x3301, 0x3301, 0x01, 0x04, .u32, .rw, 1000, false⟩,  -- WAKE_LEAD
  ⟨0x3302, 0x3302, 0x01, 0x04, .u32, .rw, 20, false⟩,  -- STASH_HOLD_LIMIT
  ⟨0x3303, 0x3303, 0x01, 0x04, .u32, .rw, 5, false⟩,  -- WAKE_IDLE
  ⟨0x3304, 0x3304, 0x01, 0x04, .u32, .ro, 0, false⟩  -- FALLBACKS
]

/-- The objects of R405 (12_object_dictionary.md). -/
def objectsR405 : List ObjDef := [
  ⟨0x1000, 0x1000, 0x00, 0x00, .str, .ro, 0, false⟩,  -- DEVICE_NAME
  ⟨0x1001, 0x1001, 0x00, 0x00, .u8, .ro, 3, false⟩,  -- RELEASE
  ⟨0x1001, 0x1001, 0x01, 0x01, .u8, .ro, 3, false⟩,  -- MAJOR
  ⟨0x1001, 0x1001, 0x02, 0x02, .u8, .ro, 2, false⟩,  -- MINOR
  ⟨0x1001, 0x1001, 0x03, 0x03, .u8, .ro, 0, false⟩,  -- PATCH
  ⟨0x1002, 0x1002, 0x00, 0x00, .str, .ro, 0, false⟩,  -- VENDOR_NAME
  ⟨0x1010, 0x1010, 0x00, 0x00, .u8, .ro, 1, false⟩,  -- MALTUR_REVISION
  ⟨0x1011, 0x1011, 0x00, 0x00, .u32, .ro, 0, false⟩,  -- MALTUR_DISCARDS
  ⟨0x1012, 0x1012, 0x00, 0x00, .u32, .ro, 0, false⟩,  -- LAST_ABORT
  ⟨0x1020, 0x1020, 0x00, 0x00, .u16, .rw, 65535, false⟩  -- NOTIFY_ROUTE
]

/-- The objects of R406 (12_object_dictionary.md). -/
def objectsR406 : List ObjDef := [
  ⟨0x2F00, 0x2F00, 0x00, 0x00, .u8, .wo, 0, false⟩,  -- COMMIT
  ⟨0x2F01, 0x2F01, 0x00, 0x00, .u8, .wo, 0, false⟩,  -- DISCARD
  ⟨0x2F02, 0x2F02, 0x00, 0x00, .u16, .ro, 0, false⟩,  -- STAGED
  ⟨0x2F03, 0x2F03, 0x00, 0x00, .u32, .ro, 0, false⟩  -- COMMITS
]

/-- The objects of R407 (12_object_dictionary.md). -/
def objectsR407 : List ObjDef := [
  ⟨0x5010, 0x5010, 0x00, 0x00, .domain, .wo, 0, false⟩,  -- KEY_A
  ⟨0x5011, 0x5011, 0x00, 0x00, .domain, .wo, 0, false⟩,  -- KEY_B
  ⟨0x5012, 0x5012, 0x01, 0x02, .bool8, .ro, 0, false⟩,  -- KEYS_SET
  ⟨0x5100, 0x5100, 0x00, 0x00, .domain, .rw, 0, false⟩,  -- PROPOSED
  ⟨0x5101, 0x5101, 0x00, 0x00, .u64, .ro, 0, false⟩,  -- NONCE
  ⟨0x5102, 0x5102, 0x00, 0x00, .domain, .wo, 0, false⟩,  -- TAG_A
  ⟨0x5103, 0x5103, 0x00, 0x00, .domain, .wo, 0, false⟩,  -- TAG_B
  ⟨0x5104, 0x5104, 0x00, 0x00, .u8, .wo, 0, false⟩,  -- PROTECT_COMMIT
  ⟨0x5105, 0x5105, 0x00, 0x00, .u8, .ro, 0, false⟩,  -- REFUSALS
  ⟨0x5106, 0x5106, 0x00, 0x00, .u8, .ro, 0, false⟩,  -- PROTECT_STATE
  ⟨0x5110, 0x5110, 0x00, 0x00, .domain, .ro, 0, false⟩,  -- ACTIVE
  ⟨0x5111, 0x5111, 0x00, 0x00, .domain, .ro, 0, false⟩,  -- ACTIVE_DIGEST
  ⟨0x5112, 0x5112, 0x00, 0x00, .u32, .ro, 0, false⟩  -- CHANGES
]

/-- The objects of R408 (12_object_dictionary.md). -/
def objectsR408 : List ObjDef := [
  ⟨0xA000, 0xA000, 0x01, 0x17, .u8, .rw, 0, false⟩,  -- EVENT_ROUTE
  ⟨0xA010, 0xA010, 0x01, 0x17, .u32, .ro, 0, false⟩,  -- EVENT_COUNT
  ⟨0xA800, 0xA800, 0x00, 0x00, .domain, .ro, 0, false⟩,  -- WAIT_SNAPSHOT
  ⟨0xC000, 0xC000, 0x01, 0x01, .u64, .rw, 0, false⟩,  -- RING_BASE
  ⟨0xC000, 0xC000, 0x02, 0x02, .u64, .rw, 0, false⟩,  -- ACCEPT_ADDR
  ⟨0xC000, 0xC000, 0x03, 0x03, .u32, .rw, 0, false⟩,  -- RING_SIZE
  ⟨0xC000, 0xC000, 0x04, 0x04, .u16, .rw, 0, false⟩,  -- SLOT_SIZE
  ⟨0xC000, 0xC000, 0x05, 0x05, .u16, .rw, 0, false⟩,  -- GROUP
  ⟨0xC000, 0xC000, 0x06, 0x06, .u8, .rw, 0, false⟩,  -- WINDOW_SET
  ⟨0xC000, 0xC000, 0x07, 0x07, .u8, .rw, 4, false⟩,  -- CLASS
  ⟨0xC000, 0xC000, 0x08, 0x08, .u8, .rw, 0, false⟩,  -- SHARE
  ⟨0xC000, 0xC000, 0x09, 0x09, .u16, .rw, 65535, false⟩,  -- ADOPT_NODE
  ⟨0xC000, 0xC000, 0x0A, 0x0A, .u32, .rw, 0, false⟩,  -- ADOPT_EPOCH
  ⟨0xC000, 0xC000, 0x0B, 0x0B, .u64, .ro, 0, false⟩,  -- ACCEPTED
  ⟨0xC000, 0xC000, 0x0C, 0x0C, .u64, .ro, 0, false⟩,  -- COMPLETED
  ⟨0xC000, 0xC000, 0x0D, 0x0D, .u32, .ro, 0, false⟩,  -- PRODUCER
  ⟨0xC000, 0xC000, 0x0E, 0x0E, .u32, .ro, 0, false⟩,  -- CONSUMER
  ⟨0xC000, 0xC000, 0x0F, 0x0F, .u16, .ro, 0, false⟩,  -- REFUSED
  ⟨0xC000, 0xC000, 0x10, 0x10, .domain, .ro, 0, false⟩,  -- IMAGE
  ⟨0xC003, 0xC003, 0x00, 0x00, .u8, .wo, 0, false⟩,  -- CONTEXT_COMMAND
  ⟨0xC0FF, 0xC0FF, 0x00, 0x00, .u32, .rw, 0, false⟩  -- CONTEXT_SELECT
]

/-- The objects of R441 (14_legacy_channels.md). -/
def objectsR441 : List ObjDef := [
  ⟨0x8000, 0x803F, 0x01, 0x01, .u8, .rwc, 0, false⟩,  -- OWNER
  ⟨0x8000, 0x803F, 0x02, 0x02, .u64, .rw, 0, false⟩,  -- SRC
  ⟨0x8000, 0x803F, 0x03, 0x03, .u64, .rw, 0, false⟩,  -- DST
  ⟨0x8000, 0x803F, 0x04, 0x04, .u32, .rw, 0, false⟩,  -- COUNT
  ⟨0x8000, 0x803F, 0x05, 0x05, .u64, .rw, 0, false⟩,  -- CTRL
  ⟨0x8000, 0x803F, 0x06, 0x06, .u64, .ro, 0, false⟩  -- STATUS
]

/-- The objects of R465 (15_service_and_limits.md). -/
def objectsR465 : List ObjDef := [
  ⟨0x3400, 0x3400, 0x01, 0x2F, .u8, .wo, 0, false⟩,  -- SERVICE
  ⟨0x3401, 0x3401, 0x01, 0x2F, .u8, .ro, 0, false⟩,  -- TEST_STATUS
  ⟨0x3402, 0x3402, 0x01, 0x1A, .u8, .ro, 0, false⟩,  -- LANE_STATE
  ⟨0x3403, 0x3403, 0x00, 0x00, .u8, .ro, 24, false⟩,  -- ACTIVE_LANES
  ⟨0x3404, 0x3404, 0x00, 0x00, .u8, .ro, 2, false⟩,  -- SPARE_LANES
  ⟨0x3500, 0x3500, 0x00, 0x00, .u32, .rw, 1000, false⟩,  -- SCRUB_PERIOD
  ⟨0x3501, 0x3501, 0x00, 0x00, .u32, .ro, 0, false⟩,  -- CORRECTED
  ⟨0x3502, 0x3502, 0x00, 0x00, .u16, .ro, 0, false⟩,  -- UNCORRECTED
  ⟨0x3503, 0x3503, 0x00, 0x00, .u32, .ro, 0, false⟩,  -- SCRUB_ADDRESS
  ⟨0xA900, 0xA900, 0x00, 0x00, .u8, .ro, 0, false⟩,  -- SURVEY_RESULT
  ⟨0xA901, 0xA901, 0x00, 0x00, .u64, .ro, 0, false⟩  -- SURVEY_FAILED
]

/-- Every object of the device (R409). -/
def objects : List ObjDef :=
  objectsR55 ++ objectsR122 ++ objectsR194 ++ objectsR239 ++ objectsR267 ++ objectsR298 ++ objectsR335 ++ objectsR367 ++
  objectsR405 ++ objectsR406 ++ objectsR407 ++ objectsR408 ++ objectsR441 ++ objectsR465

/-- Some table lists the index (R409). -/
def indexExists (index : Nat) : Bool := objects.any fun o => decide (o.ilo ≤ index) && decide (index ≤ o.ihi)

/-- The row of an object, where a table lists its subindex. -/
def objDef (index sub : Nat) : Option ObjDef :=
  objects.find? fun o => decide (o.ilo ≤ index) && decide (index ≤ o.ihi) && decide (o.slo ≤ sub) && decide (sub ≤ o.shi)

/-- The highest subindex a table lists for the index: above 0, the object is a RECORD (R376). -/
def topSub (index : Nat) : Nat :=
  objects.foldl (fun m o => if o.ilo ≤ index ∧ index ≤ o.ihi then max m o.shi else m) 0

/-- The key of an object's value in the dictionary's tables. -/
def objKey (index sub : Nat) : Nat := index * 256 + sub

/-- The default of the object with a key. -/
def objDefault (key : Nat) : Nat :=
  match objDef (key / 256) (key % 256) with
  | some o => o.dflt
  | none => 0

end Sys2Proof.Machine
end

