-- ==== Sys2Proof/Machine/Tab.lean ====
section
/-! DEFINITION. The operations of the sparse table (Word.lean): reading, writing in canonical form, and its form. -/
namespace Sys2Proof

/-- The value at index k: the listed one, or the default. -/
def Tab.get {α : Type} (d : Nat → α) : Tab α → Nat → α
  | [], k => d k
  | (i, a) :: r, k => if i = k then a else Tab.get d r k

/-- Place a value at index k, in rising order of index. -/
def Tab.insert {α : Type} (k : Nat) (a : α) : Tab α → Tab α
  | [] => [(k, a)]
  | (i, b) :: r => if k < i then (k, a) :: (i, b) :: r else if k = i then (k, a) :: r else (i, b) :: Tab.insert k a r

/-- Remove the entry at index k. -/
def Tab.erase {α : Type} (k : Nat) : Tab α → Tab α
  | [] => []
  | (i, b) :: r => if i = k then Tab.erase k r else (i, b) :: Tab.erase k r

/-- Write a value at index k; a value equal to the default leaves no entry. -/
def Tab.put {α : Type} [DecidableEq α] (d : Nat → α) (t : Tab α) (k : Nat) (a : α) : Tab α :=
  if a = d k then Tab.erase k t else Tab.insert k a t

/-- Write a list of (index, value) in order. -/
def Tab.putAll {α : Type} [DecidableEq α] (d : Nat → α) (t : Tab α) : List (Nat × α) → Tab α
  | [] => t
  | (k, a) :: r => Tab.putAll d (Tab.put d t k a) r

/-- Every index of the table lies above k, and they rise. -/
def Tab.sortedFrom {α : Type} (k : Nat) : Tab α → Bool
  | [] => true
  | (i, _) :: r => decide (k ≤ i) && Tab.sortedFrom (i + 1) r

/-- The canonical form: indexes strictly rising, no entry equal to its default. -/
def Tab.wf {α : Type} [DecidableEq α] (d : Nat → α) (t : Tab α) : Bool :=
  Tab.sortedFrom 0 t && t.all fun e => decide (e.2 ≠ d e.1)

end Sys2Proof
end

