-- ==== Sys2Proof/Machine/Ops.lean ====
section
/-! DEFINITION. The named operations over the state: indexed access, memory, addresses and ports, window checks, named
events and event posts, requests at ports, journal records. -/
namespace Sys2Proof.Machine

/-! ## Indexed state -/

def State.ctx (s : State) (c : Nat) : Ctx := Tab.get (fun _ => {}) s.ctxs c
def State.setCtx (s : State) (c : Nat) (x : Ctx) : State := { s with ctxs := Tab.put (fun _ => {}) s.ctxs c x }
def State.port (s : State) (p : Nat) : Port := Tab.get (fun _ => {}) s.ports p
def State.setPort (s : State) (p : Nat) (x : Port) : State := { s with ports := Tab.put (fun _ => {}) s.ports p x }
def State.galley (s : State) (g : Nat) : Galley := Tab.get (fun _ => {}) s.pool.galleys g
def State.setGalley (s : State) (g : Nat) (x : Galley) : State :=
  { s with pool := { s.pool with galleys := Tab.put (fun _ => {}) s.pool.galleys g x } }
def State.slot (s : State) (k : Nat) : Slot := Tab.get (fun _ => {}) s.sched.slots k
def State.setSlot (s : State) (k : Nat) (x : Slot) : State :=
  { s with sched := { s.sched with slots := Tab.put (fun _ => {}) s.sched.slots k x } }
def State.link (s : State) (l : Nat) : Link := Tab.get (fun _ => {}) s.fab.links l
def State.setLink (s : State) (l : Nat) (x : Link) : State :=
  { s with fab := { s.fab with links := Tab.put (fun _ => {}) s.fab.links l x } }
def State.stashPort (s : State) (n : Nat) : StashPort := Tab.get (fun _ => {}) s.stash n
def State.setStash (s : State) (n : Nat) (x : StashPort) : State := { s with stash := Tab.put (fun _ => {}) s.stash n x }
/-- The state byte of an island at reset reads 02h (R337): in reset, no clock seen. CTL's clock always reads present
(R338) and CTL is never held in reset alone (R352). -/
def islandReset (i : Nat) : Island := if i = 0 then { inReset := false, clockPresent := true } else {}
def State.island (s : State) (i : Nat) : Island := Tab.get islandReset s.islands i
def State.setIsland (s : State) (i : Nat) (x : Island) : State := { s with islands := Tab.put islandReset s.islands i x }
/-- The lane states of R465: 0 active, 1 spare, 2 retired, 3 gated. After reset lanes 24 and 25 are spare (R16). -/
def laneReset (l : Nat) : Nat := if l < 24 then 0 else 1
def State.lane (s : State) (l : Nat) : Nat := Tab.get laneReset s.sched.lanes l
def State.setLane (s : State) (l v : Nat) : State :=
  { s with sched := { s.sched with lanes := Tab.put laneReset s.sched.lanes l v } }

/-- The active value of a held object (R381, R382). -/
def State.obj (s : State) (index sub : Nat) : Nat := Tab.get objDefault s.dict.values (objKey index sub)
/-- The value the next commit would apply (R382). -/
def State.objNext (s : State) (index sub : Nat) : Nat :=
  Tab.get (fun k => Tab.get objDefault s.dict.values k) s.dict.staged (objKey index sub)
def State.setObj (s : State) (index sub v : Nat) : State :=
  { s with dict := { s.dict with values := Tab.put objDefault s.dict.values (objKey index sub) v } }

/-! ## Memory (R21, R8, R415) -/

/-- What an unlisted address reads as: 0 (DESIGN CHOICE, unsafe, assumption log 1). -/
def memDefault (_ : Nat) : Byte := 0
def State.byteAt (s : State) (a : Nat) : Byte := Tab.get memDefault s.mem a
def State.bytesAt (s : State) (a n : Nat) : List Byte := (List.range n).map fun i => s.byteAt (a + i)
def State.numAt (s : State) (a n : Nat) : Nat := leNat (s.bytesAt a n)
/-- The bytes of a write land in memory. -/
def State.land (s : State) (data : List (Nat × Byte)) : State := { s with mem := Tab.putAll memDefault s.mem data }
/-- Bytes at consecutive addresses. -/
def placed (a : Nat) (bs : List Byte) : List (Nat × Byte) := (List.range bs.length).zip bs |>.map fun p => (a + p.1, p.2)
def State.writeBytes (s : State) (a : Nat) (bs : List Byte) : State := s.land (placed a bs)

/-- The canonical form of memory. -/
abbrev memWf (m : List Host.Cell) : Prop := Tab.wf memDefault m = true

/-! ## Device addresses and ports (R21, R22, R418, R419, R426, R466) -/

def localSize : Nat := 2 ^ 51
def localOf (a : Nat) : Nat := a % localSize
def nodeOf (a : Nat) : Nat := bitsOf a 51 12
def remoteBit (a : Nat) : Bool := bitOf a 63
/-- The address names another node (R22, R466): REMOTE is 1 and NODE is not the device's own identifier. -/
def State.isRemote (s : State) (a : Nat) : Bool := remoteBit a && decide (s.fab.nodeId ≠ some (nodeOf a))
/-- The address the window check compares: LOCAL alone where the address names this device (R22). -/
def State.canon (s : State) (a : Nat) : Nat := if s.isRemote a then a else localOf a
/-- The sum of an address and an offset, modulo 2^51 within LOCAL; REMOTE and NODE unchanged (R93, R128). -/
def addrAdd (a : Nat) (d : Int) : Nat :=
  a / localSize * localSize + (((localOf a : Nat) : Int) + d).emod ((localSize : Nat) : Int) |>.toNat

/-- The memory port that holds a local address (R418), or none (R419). -/
def State.portOf (s : State) (a : Nat) : Option Nat :=
  if s.straps.memIlv then
    let base := 2 ^ 30 * s.straps.memBase.getD 0 0
    if base ≤ a ∧ a < base + 2 ^ 30 * 8 * s.straps.memSize.getD 0 0 then some ((a - base) / 4096 % 8) else none
  else
    (List.range 8).find? fun n =>
      decide (2 ^ 30 * s.straps.memBase.getD n 0 ≤ a) &&
        decide (a < 2 ^ 30 * s.straps.memBase.getD n 0 + 2 ^ 30 * s.straps.memSize.getD n 0)
/-- The stash port whose range holds a local address (R426). -/
def State.stashOf (s : State) (a : Nat) : Option Nat :=
  (List.range 4).find? fun n =>
    decide (2 ^ 20 * s.straps.stashBase.getD n 0 ≤ a) &&
      decide (a < 2 ^ 20 * s.straps.stashBase.getD n 0 + 2 ^ 20 * s.straps.stashSize.getD n 0)

/-- A region of n bytes lies inside the port ranges (R419), where `bound` is the end of the range holding an
address: checked range by range. -/
def State.rangeEnd (s : State) (a : Nat) : Option Nat :=
  if s.straps.memIlv then
    let base := 2 ^ 30 * s.straps.memBase.getD 0 0
    let top := base + 2 ^ 30 * 8 * s.straps.memSize.getD 0 0
    if base ≤ a ∧ a < top then some top else none
  else
    match s.portOf a with
    | some n => some (2 ^ 30 * s.straps.memBase.getD n 0 + 2 ^ 30 * s.straps.memSize.getD n 0)
    | none => none
/-- Whether [a, a + n) lies inside the port ranges; at most eight ranges need joining. -/
def State.covered (s : State) : Nat → Nat → Nat → Bool
  | 0, a, top => decide (top ≤ a)
  | fuel + 1, a, top =>
    if top ≤ a then true else
      match s.rangeEnd a with
      | some e => State.covered s fuel e top
      | none => false
def State.regionOk (s : State) (a n : Nat) : Bool := State.covered s 9 a (a + n)
/-- Some byte of a region, which is not empty, lies in the range of port p (R418). -/
def State.portMeets (s : State) (p a n : Nat) : Bool :=
  let base := 2 ^ 30 * s.straps.memBase.getD (if s.straps.memIlv then 0 else p) 0
  let size := 2 ^ 30 * s.straps.memSize.getD (if s.straps.memIlv then 0 else p) 0
  if s.straps.memIlv then
    let first := (max a base - base) / 4096
    decide (base < a + n) && decide (a < base + 8 * size) &&
      (List.range 8).any fun i => decide (base + (first + i) * 4096 < a + n) && decide ((first + i) % 8 = p)
  else decide (base < a + n) && decide (a < base + size)

/-! ## Islands in use (R348, R350, R361) -/

def ctlIsland : Nat := 0
def schedIsland : Nat := 1
def moverIsland (m : Nat) : Nat := 2 + m
def poolIsland : Nat := 15
def ctxIsland : Nat := 16
def jrnIsland : Nat := 17
def portIsland (p : Nat) : Nat := 18 + p
def linkIsland (l : Nat) : Nat := 26 + l
def stashIsland (n : Nat) : Nat := 42 + n
def tstIsland : Nat := 46
/-- The island reads CLOCK_PRESENT 0, IN_RESET 1 or GATED 1 (R350). -/
def Island.unreachable (i : Island) : Bool := !i.clockPresent || i.inReset || i.gated
/-- A hang of the island's crossings that is not a pause under HOLD, or its reset or gating (R347, R350, R358). -/
def Island.absent (i : Island) : Bool := (!i.clockPresent && !i.clockPaused) || i.inReset || i.gated
/-- The port decides no new grant: its domain goes down, or its island is being powered down or retired (R353, R361, R455). -/
def State.portClosing (s : State) (p : Nat) : Bool :=
  let i := s.island (portIsland p)
  (s.port p).qreq || i.pdreq || i.heldOut
/-- No access is issued to the port: its domain is down or going down, or its island is clock-absent, in reset
or gated (R264, R348, R361). A clock that is paused under HOLD only hangs what is issued (R358). -/
def State.portDown (s : State) (p : Nat) : Bool :=
  s.portClosing p || (s.port p).qack || (s.island (portIsland p)).absent
/-- A read of a region waits: it lies in the port ranges (R23, R419), and a port that holds part of it takes no access. -/
def State.readWaits (s : State) (a n : Nat) : Bool :=
  s.regionOk a n && (List.range 8).any fun p => s.portMeets p a n && s.portDown p
/-- The stash port that takes the writes of a local address (R426): none while Sn is gated, in reset or being taken out of
service (R353, R452); while only its clock has stopped they hang before it (R347). -/
def State.stashTakes (s : State) (a : Nat) : Option Nat :=
  match s.stashOf a with
  | some n =>
    let i := s.island (stashIsland n)
    if i.gated || i.inReset || i.heldOut || i.pdreq then none else some n
  | none => none

/-! ## Windows (R397, R398) -/

/-- The byte of ACTIVE's default image at an offset (R404): VERSION 0001h, every slot FFFFh, the rest zero. -/
def activeDefault (o : Nat) : Byte := if o = 0 then 1 else if 0x20040 ≤ o ∧ o < 0x22040 then 0xFF else 0
def imageSize : Nat := 139328
def imageNum (img : Nat → Byte) (o n : Nat) : Nat := leNat ((List.range n).map fun i => img (o + i))
def Protect.activeByte (p : Protect) (o : Nat) : Byte := Tab.get activeDefault p.active o
def Protect.proposedByte (p : Protect) (o : Nat) : Byte := Tab.get (fun _ => 0) p.proposed o
/-- Window w of an image grants the right (0 READ, 1 WRITE) for an address. -/
def windowGrants (img : Nat → Byte) (w right a : Nat) : Bool :=
  let b := 0x40 + 0x20 * w
  bitOf (imageNum img (b + 16) 1) right && decide (imageNum img b 8 ≤ a) && decide (a ≤ imageNum img (b + 8) 8)
/-- Some slot of the set names a window that grants the right (R397). -/
def setGrants (img : Nat → Byte) (set right a : Nat) : Bool :=
  (List.range 16).any fun i =>
    let w := imageNum img (0x20040 + 0x20 * set + 2 * i) 2
    decide (w < 4096) && windowGrants img w right a
def rightRead : Nat := 0
def rightWrite : Nat := 1
/-- The active windows grant the right for one byte at a device address. -/
def State.grants (s : State) (set right a : Nat) : Bool := setGrants s.prot.activeByte set right a
/-- The end of the furthest window of the set that grants the right at an address: LIMIT + 1. -/
def windowEnd (img : Nat → Byte) (set right a : Nat) : Option Nat :=
  (List.range 16).foldl (fun e i =>
    let w := imageNum img (0x20040 + 0x20 * set + 2 * i) 2
    if w < 4096 ∧ windowGrants img w right a then some (max (e.getD 0) (imageNum img (0x48 + 0x20 * w) 8 + 1)) else e) none
/-- The first address of [a, top) that no window grants; each window serves one step. -/
def firstOutside (img : Nat → Byte) (set right : Nat) : Nat → Nat → Nat → Option Nat
  | 0, a, top => if a < top then some a else none
  | n + 1, a, top =>
    if top ≤ a then none else
      match windowEnd img set right a with
      | some e => firstOutside img set right n e top
      | none => some a
/-- The first of n bytes from an address outside the windows (R245's PROTECTION). -/
def State.firstDenied (s : State) (set right a n : Nat) : Option Nat :=
  let c := s.canon a
  (firstOutside s.prot.activeByte set right 16 c (c + n)).map fun d => a + (d - c)

/-! ## Modes (R54) -/

def Mode.code : Mode → Nat
  | .halt => 0
  | .config => 1
  | .flow => 2
  | .keep => 3
  | .twin => 4
  | .drain => 5
  | .recover => 6
  | .survey => 7
def modeOfCode : Nat → Mode
  | 0 => .halt
  | 1 => .config
  | 2 => .flow
  | 3 => .keep
  | 4 => .twin
  | 5 => .drain
  | 6 => .recover
  | _ => .survey
/-- FLOW, KEEP and TWIN accept work (R54). -/
def Mode.traffic (m : Mode) : Bool := m = .flow || m = .keep || m = .twin
/-- The mode whose completion rules hold: in DRAIN the mode it was entered from (R60). -/
def Ctl.rulesOf (c : Ctl) : Mode := if c.mode = .drain then c.drainFrom else c.mode
/-- The completion rules of KEEP or TWIN hold. -/
def State.journaled (s : State) : Bool := s.ctl.rulesOf = .keep || s.ctl.rulesOf = .twin

/-! ## Status codes (R245) and channel states (R247) -/

def Status.code : Status → Nat
  | .done => 0
  | .doneZero => 1
  | .paused => 2
  | .doneMismatch => 3
  | .busFault => 0x10
  | .fetchFault => 0x11
  | .gatherFault => 0x12
  | .protection => 0x13
  | .badOp => 0x14
  | .badPattern => 0x15
  | .linkLoop => 0x16
  | .waitTimeout => 0x17
  | .domainDown => 0x18
  | .flushed => 0x19
  | .aborted => 0x1A
  | .poolEmpty => 0x1B
  | .nodeUnreachable => 0x1C
def ChState.code : ChState → Nat
  | .closed => 0
  | .idle => 1
  | .running => 2
  | .waiting => 3
  | .pausing => 4
  | .paused => 5
  | .halted => 6
  | .aborting => 7

/-! ## Named events and event posts (R345, R394, R395, R433) -/

def Event.number : Event → Nat
  | .channelHalted => 1
  | .badDoorbell => 2
  | .statusWriteFault => 3
  | .poolLow8 => 4
  | .poolLow64 => 5
  | .markTableFull => 6
  | .galleyPointer => 7
  | .galleyLost => 8
  | .journalFull => 9
  | .twinUnreachable => 10
  | .twinShadowLost => 11
  | .nodeConflict => 12
  | .nodeSpaceFull => 13
  | .memHoldLong => 14
  | .clockLost => 15
  | .islandFault => 16
  | .modeChanged => 17
  | .malturOverrun => 18
  | .protectionLocked => 19
  | .protectionChanged => 20
  | .journalWriteFault => 21
  | .drainHeld => 22
  | .postedWriteFault => 23

def satAdd (limit v n : Nat) : Nat := min limit (v + n)
def u32Max : Nat := 4294967295
def u16Max : Nat := 65535
def zeroTab (_ : Nat) : Nat := 0
/-- Key of the event counter a source island holds for a wire (R345). -/
def postKey (source wire : Nat) : Nat := source * 16 + wire
/-- A source posts an event for a wire: its counter rises by one (R345). -/
def State.post (s : State) (source wire : Nat) : State :=
  let k := postKey source wire
  { s with ctl := { s.ctl with posts := Tab.put zeroTab s.ctl.posts k (Tab.get zeroTab s.ctl.posts k + 1) } }
/-- The events of a source that the returned count does not cover (R346). -/
def State.postsOf (s : State) (source wire : Nat) : Nat := Tab.get zeroTab s.ctl.posts (postKey source wire)
/-- A source holds the 32,767 events of R346 for the wire. -/
def State.postFull (s : State) (source wire : Nat) : Bool := decide (32767 ≤ s.postsOf source wire)
/-- The island whose unit raises an event, and posts it (R345; DEDUCED, assumption log 92). -/
def Event.source : Event → Nat
  | .poolLow8 | .poolLow64 | .markTableFull | .galleyPointer | .galleyLost => poolIsland
  | .journalFull | .journalWriteFault | .twinUnreachable | .twinShadowLost => jrnIsland
  | .channelHalted | .badDoorbell | .statusWriteFault | .postedWriteFault => schedIsland
  | _ => ctlIsland
/-- A unit posts a named event, or holds the post back while the returned count leaves its source no room (R346). -/
def State.postEvent (s : State) (source wire : Nat) : State :=
  let k := postKey source wire
  if s.postFull source wire then { s with ctl := { s.ctl with owed := Tab.put zeroTab s.ctl.owed k (Tab.get zeroTab s.ctl.owed k + 1) } }
  else s.post source wire
/-- Raise a named event (R395): it counts, it adds to what its next NOTIFY reports, and its route posts it or asks for that
NOTIFY (R379). -/
def State.raise (s : State) (e : Event) : State :=
  let n := e.number
  let route := s.obj 0xA000 n
  let s1 := { s with ctl := { s.ctl with
    eventCount := Tab.put zeroTab s.ctl.eventCount n (satAdd u32Max (Tab.get zeroTab s.ctl.eventCount n) 1)
    notifyPending := Tab.put zeroTab s.ctl.notifyPending n (satAdd u16Max (Tab.get zeroTab s.ctl.notifyPending n) 1)
    notifyDue := if bitOf route 5 then Tab.put zeroTab s.ctl.notifyDue n 1 else s.ctl.notifyDue } }
  if bitOf route 4 then s1.postEvent e.source (bitsOf route 0 4) else s1
/-- A unit does no further work of its own: it holds back a post (R346), or its clock has stopped (R347; assumption log 93). -/
def State.unitWaits (s : State) (i : Nat) : Bool :=
  (s.island i).absent || s.ctl.owed.any fun e => decide (e.1 / 16 = i)
/-- Raise an event when a condition holds. -/
def State.raiseIf (s : State) (b : Bool) (e : Event) : State := if b then s.raise e else s
/-- The mode changes, with its cause (R55, R394's MODE_CHANGED); entry to CONFIG ends a lock of protection (R403). -/
def State.enterMode (s : State) (m : Mode) (cause : Nat) : State :=
  let p := s.prot
  ({ s with
    ctl := { s.ctl with mode := m, modeCause := cause }
    prot := if m = .config then { p with refusals := 0, locked := false } else p } : State).raise .modeChanged

/-- Take a free value: the count that selects it advances. -/
def State.nextFree (s : State) : State := { s with free := s.free + 1 }

/-! ## Requests at ports (R218, R230, R236) -/

def laneReq (l : Nat) : Nat := l
def schedReq : Nat := 26
def poolReq : Nat := 27
def jrnReq : Nat := 28
def stashReq (n : Nat) : Nat := 32 + n
def linkReq (l : Nat) : Nat := 36 + l
def Port.chan (p : Port) (write : Bool) : PortChan := if write then p.wr else p.rd
def Port.setChan (p : Port) (write : Bool) (c : PortChan) : Port :=
  if write then { p with wr := c } else { p with rd := c }
/-- A requester presents a request at a port (R230), not before the cycle after the last round the port knows of
(assumption log 74). -/
def State.present (s : State) (port : Nat) (write : Bool) (r : PortReq) : State :=
  let p := s.port port
  let c := p.chan write
  s.setPort port (p.setChan write { c with queue := c.queue ++ [{ r with since := p.cycle + 1 }] })
def beatOf (a : Nat) : Nat := a / 128 * 128
/-- The pieces of a run of n bytes in chunks of at most k: (start, count). -/
def chunks (k n : Nat) : List (Nat × Nat) := (List.range ((n + k - 1) / k)).map fun i => (i * k, min k (n - i * k))
/-- The wake hint of a burst toward a stash port (R363). -/
def State.wakeStash (s : State) (n : Nat) : State :=
  let k := s.stashPort n
  if k.wake then s else s.setStash n { k with wake := true, leadPassed := decide (s.obj 0x3301 (n + 1) = 0) }
/-- Bytes at consecutive addresses go to a stash port, cut into tiles of STASH_TILE bytes (R363, R365); `first` is the device
address of the first and `offset` its stream offset. -/
def State.giveTiles (s : State) (n : Nat) (r : PortReq) (first offset : Nat) (bs : List Byte) : State :=
  (chunks (s.obj 0x3300 (n + 1)) bs.length).foldl (fun v c =>
    let w := v.stashPort n
    let a := addrAdd first (c.1 : Nat)
    v.setStash n { w with tiles := w.tiles ++
      [{ r with requester := stashReq n, presented := none, locked := false, parked := false
                beats := [{ addr := localOf a, len := c.2, side := 0, offset := offset + c.1, first := a, attempts := 0,
                            data := placed (localOf a) ((bs.drop c.1).take c.2) }] }] }) (s.wakeStash n)
/-- Writes to stash ranges whose port does not take them go to memory: each burst counts as a fallback (R366, R426). -/
def State.countFallbacks (s : State) (addrs : List Nat) : State :=
  ((addrs.filterMap fun a => if (s.stashTakes a).isSome then none else s.stashOf a).eraseDups).foldl (fun t n =>
    let k := t.stashPort n
    t.setStash n { k with fallbacks := satAdd u32Max k.fallbacks 1 }) s
/-- A write of bytes that lie within one beat goes to the stash port of its address, else to its memory port `p` (R418, R426). -/
def State.presentAt (s : State) (p : Nat) (r : PortReq) (a : Nat) (bs : List Byte) : State :=
  match s.stashTakes a with
  | some n => s.giveTiles n r a 0 bs
  | none => (s.countFallbacks [a]).present p true
      { r with beats := [{ addr := beatOf a, len := bs.length, side := 0, data := placed a bs, offset := 0, first := a, attempts := 0 }] }
/-- The same at the port whose range holds the address; outside every range it is not issued (R419). -/
def State.presentBeat (s : State) (r : PortReq) (a : Nat) (bs : List Byte) : State :=
  match s.portOf a with
  | some p => s.presentAt p r a bs
  | none => s
/-- A write of one beat that no burst of an op makes. -/
def State.presentWrite (s : State) (o : Owner) (requester cls a : Nat) (bs : List Byte) : State :=
  s.presentBeat { owner := o, requester := requester, cls := cls, beats := [], presented := none, locked := false, block := none,
                  parked := false } a bs
/-- A read of one beat, presented at the port of its address. -/
def State.presentRead (s : State) (o : Owner) (requester cls a : Nat) : State :=
  match s.portOf a with
  | some p => s.present p false
      { owner := o, requester := requester, cls := cls, presented := none, locked := false, block := none, parked := false,
        beats := [{ addr := beatOf a, len := 0, side := 0, data := [], offset := 0, first := a, attempts := 0 }] }
  | none => s

/-- Some access at a memory port, presented or outstanding, is for an owner that the test accepts. -/
def PortChan.has (c : PortChan) (f : Owner → Bool) : Bool :=
  c.queue.any (fun r => f r.owner) || c.out.any (fun a => !a.discard && f a.owner)
def Port.has (p : Port) (f : Owner → Bool) : Bool := p.rd.has f || p.wr.has f
def State.portHas (s : State) (f : Owner → Bool) : Bool := s.ports.any fun e => e.2.has f
/-- Some access that waits for its response is for an owner the test accepts: at a port, at a stash port or on
another node. -/
def State.accessFor (s : State) (f : Owner → Bool) : Bool :=
  s.portHas f || s.stash.any (fun e => e.2.tiles.any fun t => f t.owner) || s.fab.remotes.any (fun r => f r.owner)
/-- A request of the owner waits at a port and has not been granted. -/
def State.waitingFor (s : State) (f : Owner → Bool) : Bool :=
  s.ports.any fun e => e.2.rd.queue.any (fun r => f r.owner) || e.2.wr.queue.any (fun r => f r.owner)

/-- Remove the waiting requests of an owner (R250's withdrawal, R234's drop). -/
def PortChan.drop (c : PortChan) (f : PortReq → Bool) : PortChan := { c with queue := c.queue.filter fun r => !f r }
def State.withdraw (s : State) (f : PortReq → Bool) : State :=
  { s with ports := s.ports.map fun e => (e.1, { e.2 with rd := e.2.rd.drop f, wr := e.2.wr.drop f }) }

/-! ## Doorbell responses and Maltur answers -/

/-- Present a doorbell port response (R420). -/
def State.showResponse (s : State) (r : DbResponse) : State :=
  { s with sched := { s.sched with dbOut := s.sched.dbOut ++ [r] } }
def State.respond (s : State) (id data : Nat) (err : Bool) : State := s.showResponse { id := id, data := data, err := err }
/-- The doorbell response word of R423. -/
def doorbellWord (ctx refused outcome accepted : Nat) : Nat :=
  accepted + 2 ^ 64 * outcome + 2 ^ 72 * refused + 2 ^ 96 * ctx
/-- Answer a doorbell of a context (R43, R423). -/
def State.respondBell (s : State) (c id refused outcome : Nat) : State :=
  s.showResponse { id := id, ctx := some c, data := doorbellWord c refused outcome (s.ctx c).accepted, err := false }

/-! ## Frames of the device's own (R320, R322) -/

/-- The device's node identifier as records and frames carry it: FFFh without one (R274, R303). -/
def State.nodeNum (s : State) : Nat := s.fab.nodeId.getD 4095
/-- The device may originate traffic: it holds an identifier and is not in conflict (R319, R466). -/
def State.mayOriginate (s : State) : Bool := s.fab.nodeId.isSome && decide (s.fab.nodeState = 1)
def State.route (s : State) (n : Nat) : RouteEntry := Tab.get (fun _ => {}) s.fab.routes n
/-- A route to the node exists (R327). -/
def State.routed (s : State) (n : Nat) : Bool :=
  s.mayOriginate && ((s.route n).primaryValid || (s.route n).altValid)
/-- The link a frame to a node takes: the alternate while ON_ALT (R322, R323). -/
def State.outLink (s : State) (n : Nat) : Nat :=
  let r := s.route n
  if (r.onAlt || !r.primaryValid) && r.altValid then r.alternate else r.primary
/-- Queue a frame on a link's output (R308). -/
def State.queueFrame (s : State) (l : Nat) (f : Frame) : State :=
  let k := s.link l
  s.setLink l { k with tx := k.tx ++ [f] }
/-- Send a frame of the device's own to its DEST by the route table; without a route it is not sent (R320, R322). -/
def State.sendFrame (s : State) (f : Frame) : State :=
  if s.routed f.dest then s.queueFrame (s.outLink f.dest) { f with src := s.nodeNum } else s

/-! ## The journal's records (R268, R274, R275) -/

/-- The 64 bytes of a record (R274, R275). -/
def Record.body (r : Record) : List Byte :=
  match r.kind with
  | .accept => leBytes 4 r.ctx ++ leBytes 4 r.slotIndex ++ leBytes 8 r.seq ++ leBytes 8 r.slotAddr ++ leBytes 16 0
  | .complete => leBytes 4 r.ctx ++ leBytes 4 r.slotIndex ++ leBytes 8 r.seq ++ (r.statusArea ++ List.replicate 16 0).take 16 ++
      leBytes 8 0
  | .counter => leBytes 4 r.ctx ++ leBytes 4 r.ord ++ leBytes 8 r.seq ++ leBytes 8 r.old ++ leBytes 8 r.value ++
      leBytes 2 r.group ++ leBytes 2 r.counter ++ leBytes 1 r.opIndex ++ leBytes 1 0 ++ leBytes 2 r.block
  | .flush => leBytes 4 r.galley ++ leBytes 4 r.entries ++ leBytes 8 r.lowSeq ++ leBytes 8 r.highSeq ++ leBytes 4 r.units ++
      leBytes 12 0
  | .epoch => leBytes 1 r.event ++ leBytes 1 r.mode ++ leBytes 1 r.cause ++ leBytes 1 0 ++ leBytes 4 r.prevEpoch ++
      leBytes 8 r.prevEnd ++ leBytes 2 r.twin ++ leBytes 22 0
def RecKind.code : RecKind → Nat
  | .accept => 1
  | .complete => 2
  | .counter => 3
  | .flush => 4
  | .epoch => 5
def boolBit (b : Bool) (i : Nat) : Nat := if b then 2 ^ i else 0
def Record.bytes (r : Record) : List Byte :=
  let b := leBytes 1 r.kind.code ++ leBytes 1 (boolBit r.carried 0 + boolBit r.void 1) ++ leBytes 2 r.node ++
    leBytes 4 r.epoch ++ leBytes 8 r.pos ++ r.body ++ leBytes 4 0
  b ++ leBytes 4 (crc32c b)
/-- The record that 64 bytes hold, if their KIND is one and their CRC checks (R274, R291). -/
def recordOf (bs : List Byte) : Option Record :=
  if fieldAt bs 0x3C 4 ≠ crc32c (bs.take 0x3C) then none else
    let common (k : RecKind) : Record :=
      { kind := k, carried := bitOf (fieldAt bs 1 1) 0, void := bitOf (fieldAt bs 1 1) 1, node := fieldAt bs 2 2 % 4096,
        epoch := fieldAt bs 4 4, pos := fieldAt bs 8 8 }
    match fieldAt bs 0 1 with
    | 1 => some { (common .accept) with
                    ctx := fieldAt bs 0x10 4 % 2 ^ 18, slotIndex := fieldAt bs 0x14 4,
                    seq := fieldAt bs 0x18 8, slotAddr := fieldAt bs 0x20 8 }
    | 2 => some { (common .complete) with
                    ctx := fieldAt bs 0x10 4 % 2 ^ 18, slotIndex := fieldAt bs 0x14 4,
                    seq := fieldAt bs 0x18 8, statusArea := (bs.drop 0x20).take 16 }
    | 3 => some { (common .counter) with
                    ctx := fieldAt bs 0x10 4 % 2 ^ 18, ord := fieldAt bs 0x14 4,
                    seq := fieldAt bs 0x18 8, old := fieldAt bs 0x20 8, value := fieldAt bs 0x28 8,
                    group := fieldAt bs 0x30 2, counter := fieldAt bs 0x32 2, opIndex := fieldAt bs 0x34 1,
                    block := fieldAt bs 0x36 2 }
    | 4 => some { (common .flush) with
                    galley := fieldAt bs 0x10 4 % 2 ^ 17, entries := fieldAt bs 0x14 4,
                    lowSeq := fieldAt bs 0x18 8, highSeq := fieldAt bs 0x20 8, units := fieldAt bs 0x28 4 }
    | 5 => some { (common .epoch) with
                    event := fieldAt bs 0x10 1, mode := fieldAt bs 0x11 1, cause := fieldAt bs 0x12 1,
                    prevEpoch := fieldAt bs 0x14 4, prevEnd := fieldAt bs 0x18 8, twin := fieldAt bs 0x20 2 % 4096 }
    | _ => none

def ringRecords (s : State) : Nat := s.obj 0x9002 0
/-- The address of the record at a position (R268). -/
def recordAddr (s : State) (pos : Nat) : Nat := s.obj 0x9001 0 + pos % ringRecords s * 0x40
/-- The accepted and uncompleted items of a device, L of R279. -/
def liveItems (s : State) : Nat := s.ctxs.foldl (fun n e => n + e.2.items.length) 0
/-- The positions the ring still has (R279). -/
def freePositions (s : State) : Nat := ringRecords s - (s.jrn.head - s.jrn.tailWritten)
/-- The ring has a position for a record of the kind (R279): for an ACCEPT while the free positions after it exceed L +
COUNTER_RESERVE, for a COUNTER or FLUSH while they exceed L; a COMPLETE and an EPOCH need one. -/
def State.hasPosition (s : State) (k : RecKind) : Bool :=
  match k with
  | .accept => decide (liveItems s + s.obj 0x9005 0 < freePositions s - 1)
  | .counter => decide (liveItems s < freePositions s - 1)
  | .flush => decide (liveItems s < freePositions s - 1)
  | .complete => decide (0 < freePositions s)
  | .epoch => decide (0 < freePositions s)
/-- JRN admits a record of the kind: it does not wait itself (R346, R347), the ring has a position, and at most 4,096 writes stand
outstanding (R269). -/
def admits (s : State) (k : RecKind) : Bool :=
  !s.unitWaits jrnIsland && decide (s.jrn.inFlight.length < 4096) && s.hasPosition k
/-- A shipment of consecutive records to the twin (R285, R290). -/
def shipment (s : State) (records : List (List Byte)) (truncate : Bool) : Frame :=
  { type := 0x1E, cls := s.obj 0x4031 0, vl := 1, dest := s.obj 0x9020 0 % 4096
    payload := leBytes 8 s.jrn.tailWritten ++ leBytes 1 records.length ++ leBytes 1 (boolBit truncate 0) ++ leBytes 6 0 ++ records.flatten }
/-- JRN assigns the next position to a record under the open epoch and issues its write (R268, R269). -/
def State.issueLocal (s : State) (r : Record) : State :=
  let r' := { r with pos := s.jrn.head, epoch := s.jrn.epoch }
  let s1 := { s with jrn := { s.jrn with head := s.jrn.head + 1, inFlight := s.jrn.inFlight ++ [r'] } }
  s1.presentWrite (.record r'.pos) jrnReq (s.obj 0x4031 0) (recordAddr s r'.pos) r'.bytes
/-- In TWIN JRN ships each record as it is issued (R285; shipments of one record, assumption log 7). -/
def State.issueRecord (s : State) (r : Record) : State :=
  let r' := { r with pos := s.jrn.head, epoch := s.jrn.epoch }
  let s1 := s.issueLocal r
  if s.ctl.rulesOf = .twin then s1.sendFrame (shipment s [r'.bytes] false) else s1
/-- A new record of this device (R274). -/
def State.writeRecord (s : State) (r : Record) : State := s.issueRecord { r with node := s.nodeNum }
/-- A record of the kind waits: for a position with JOURNAL_FULL, once per episode (R279). -/
def State.journalFull (s : State) (k : RecKind) : State :=
  if s.hasPosition k || s.jrn.full.contains k then s
  else ({ s with jrn := { s.jrn with full := s.jrn.full ++ [k] } } : State).raiseIf s.jrn.full.isEmpty .journalFull
/-- The waits end that the ring has a position for, whatever freed it (R279). -/
def State.endWaits (s : State) : State :=
  { s with jrn := { s.jrn with full := s.jrn.full.filter fun k => !s.hasPosition k } }
/-- The lowest position that has not entered the ring: every one below has (R269). -/
def State.entered (s : State) : Nat :=
  s.jrn.inFlight.foldl (fun m r => if s.jrn.acked.contains r.pos then m else min m r.pos) s.jrn.head
/-- A position has entered the ring (R269). -/
def State.inRing (s : State) (pos : Nat) : Bool := decide (pos < s.entered)
/-- The position is durable for publication: in the ring and, in TWIN, reached by the twin point (R33, R286). -/
def State.durable (s : State) (pos : Nat) : Bool :=
  s.inRing pos && (s.ctl.rulesOf ≠ .twin || (s.twin.held && decide (pos ≤ s.twin.point)))

/-- Records whose position has entered the ring leave the writes in flight and stand in the log (R269). -/
def State.enterRing (s : State) : State :=
  let e := s.entered
  { s with jrn := { s.jrn with
    inFlight := s.jrn.inFlight.filter fun r => !decide (r.pos < e)
    log := s.jrn.log ++ s.jrn.inFlight.filter fun r => decide (r.pos < e)
    acked := s.jrn.acked.filter fun p => !decide (p < e) } }

/-- The anchor's 64 bytes (R272). -/
def anchorBytes (s : State) : List Byte :=
  let b := leBytes 4 0x4A524E31 ++ leBytes 4 s.jrn.epoch ++ leBytes 8 (s.obj 0x9001 0) ++ leBytes 4 (ringRecords s) ++
    leBytes 1 s.jrn.anchorState ++ leBytes 1 s.jrn.anchorMode ++ leBytes 1 s.jrn.anchorTarget ++ leBytes 1 0 ++
    leBytes 8 s.jrn.tail ++ leBytes 8 (s.obj 0x9003 0) ++ leBytes 8 (s.obj 0x9004 0) ++
    leBytes 2 (s.obj 0x9020 0 % 4096) ++ leBytes 10 0
  b ++ leBytes 4 (crc32c b)
def anchorAddr (s : State) : Nat := s.straps.anchorAddr * 4096

/-! ## JRN's upkeep: anchor, images, what RECOVER writes (R270, R273, R283) -/

/-- An upkeep write is at its port, outstanding, or waits to be issued again. -/
def State.upkeepOut (s : State) : Bool := s.accessFor (· = .upkeep) || s.jrn.failed.any fun r => r.owner = .upkeep
/-- Some upkeep write is not done. -/
def State.upkeepBusy (s : State) : Bool := !s.jrn.upkeep.isEmpty || s.upkeepOut
/-- The upkeep writes that are not done. -/
def State.upkeepCount (s : State) : Nat := s.jrn.upkeep.length + if s.upkeepOut then 1 else 0
/-- JRN presents the next upkeep write once the one before it is done (assumption log 13). -/
def State.upkeepNext (s : State) : State :=
  match s.jrn.upkeep with
  | [] => s
  | (a, bs) :: l =>
    if s.upkeepOut || s.unitWaits jrnIsland then s
    else ({ s with jrn := { s.jrn with upkeep := l } } : State).presentWrite .upkeep jrnReq (s.obj 0x4031 0) a bs
/-- The bytes from an address on, cut at 128 B blocks. -/
def blocksOf (a : Nat) (bs : List Byte) : List (Nat × List Byte) :=
  (List.range ((a % 128 + bs.length + 127) / 128)).map fun k =>
    if k = 0 then (a, bs.take (128 - a % 128)) else (beatOf a + k * 128, (bs.drop (k * 128 - a % 128)).take 128)
/-- JRN writes bytes of its upkeep, in order after those that wait; what lies outside every range is not issued (R419). -/
def State.upkeepWrite (s : State) (a : Nat) (bs : List Byte) : State :=
  ({ s with jrn := { s.jrn with upkeep := s.jrn.upkeep ++ (blocksOf a bs).filter fun e => (s.portOf e.1).isSome } } : State).upkeepNext
/-- An upkeep write is answered; with the last of them the anchor in memory shows JRN's TAIL (R279). -/
def State.upkeepDone (s : State) : State :=
  let t := s.upkeepNext
  if t.upkeepBusy then t else ({ t with jrn := { t.jrn with tailWritten := t.jrn.tail } } : State).endWaits
/-- JRN writes the anchor from its fields. -/
def State.writeAnchor (s : State) : State := s.upkeepWrite (anchorAddr s) (anchorBytes s)

end Sys2Proof.Machine
end

