-- ==== Sys2Proof/Machine/Operands.lean ====
section
/-! DEFINITION. Operand forms: op fields, patterns and element lists (R123 to R129), predicates (R141 to R144), partition
and tally descriptors (R198, R211), and the checks of R124 and R467. -/
namespace Sys2Proof.Machine

/-- The local address of a device address that names this device (R22, R466). -/
def State.toLocal (_s : State) (a : Nat) : Nat := localOf a

/-! ## Streams -/

/-- The byte total of a pattern (R129); COL2 has C0 = C2 = 1 (R127). -/
def Pattern.total (p : Pattern) : Nat := p.elem * p.c0 * p.c1 * p.c2
/-- The device address of stream byte k of a pattern (R126, R128). -/
def Pattern.addr (p : Pattern) (k : Nat) : Nat :=
  let e := k / p.elem
  let r := e / p.c0
  addrAdd p.base (((e % p.c0 : Nat) : Int) * p.s0 + ((r % p.c1 : Nat) : Int) * p.s1 + ((r / p.c1 : Nat) : Int) * p.s2 +
    ((k % p.elem : Nat) : Int))
/-- The total of an element list (R129). -/
def elemTotal (l : List (Nat × Nat)) : Nat := l.foldl (fun n e => n + e.2) 0
/-- The element that covers stream offset k, and the offset within it (R149). -/
def elemAt : List (Nat × Nat) → Nat → Nat → Nat × Nat × Nat
  | [], i, k => (i, 0, k)
  | (a, n) :: r, i, k => if k < n then (i, a, k) else elemAt r (i + 1) (k - n)
def Side.total : Side → Nat
  | .pattern p => p.total
  | .elements l => elemTotal l
def Side.addr : Side → Nat → Nat
  | .pattern p, k => p.addr k
  | .elements l, k => let e := elemAt l 0 k; addrAdd e.2.1 (e.2.2 : Nat)
/-- The element index at a stream offset; 0 for a pattern. -/
def Side.element : Side → Nat → Nat
  | .pattern _, _ => 0
  | .elements l, k => (elemAt l 0 k).1
/-- A COL2 stream of one line of n bytes. -/
def lineSide (a n : Nat) : Side :=
  .pattern { elem := n, base := a, c0 := 1, c1 := 1, c2 := 1, s0 := 0, s1 := 0, s2 := 0 }

/-! ## Descriptors -/

/-- A pattern descriptor's 64 bytes with a loop advance (R93, R125); none where a field is undefined. -/
def patternOf (b : List Byte) (adv : Int) : Option Pattern :=
  let base := addrAdd (fieldAt b 8 8) adv
  match fieldAt b 0 1 with
  | 1 => if 256 < fieldAt b 2 2 then none else
      some { elem := fieldAt b 2 2, base := base, c0 := fieldAt b 0x10 4, c1 := fieldAt b 0x14 4, c2 := fieldAt b 0x18 4,
             s0 := signedOf 48 (fieldAt b 0x20 6), s1 := signedOf 48 (fieldAt b 0x26 6), s2 := signedOf 48 (fieldAt b 0x2C 6) }
  | 2 => some { elem := fieldAt b 0x10 4, base := base, c0 := 1, c1 := fieldAt b 0x14 4, c2 := 1,
                s0 := 0, s1 := signedOf 48 (fieldAt b 0x20 6), s2 := 0 }
  | _ => none
/-- The elements of a list of n (R148). -/
def elementsOf (b : List Byte) (n : Nat) : List (Nat × Nat) :=
  (List.range n).map fun i => (fieldAt b (16 * i) 8, fieldAt b (16 * i + 8) 4)
def termOf (b : List Byte) : Term :=
  { offset := fieldAt b 0 1, width := fieldAt b 1 1, cmp := fieldAt b 2 1, signed := bitOf (fieldAt b 3 1) 0,
    lo := fieldAt b 8 8, hi := fieldAt b 0x10 8, set := (b.drop 0x10).take 32 }
/-- A predicate descriptor's 256 bytes (R141). -/
def predicateOf (b : List Byte) : Predicate :=
  { j01 := bitOf (fieldAt b 0 1) 0, j23 := bitOf (fieldAt b 0 1) 1, jout := bitOf (fieldAt b 0 1) 2,
    result := fieldAt b 8 8,
    terms := [termOf (b.drop 0x10), termOf (b.drop 0x40), termOf (b.drop 0x70), termOf (b.drop 0xA0)] }
/-- A term's fields are defined (R142, R143); offsets are compared with ROW_LEN only when it is not 0 (R124). -/
def Term.ok (t : Term) (rowLen : Nat) : Bool :=
  if t.cmp = 8 ∨ t.cmp = 9 then true else
    decide (t.cmp < 8) && decide (1 ≤ t.width) && decide (t.width ≤ 8) && (decide (t.cmp ≠ 7) || decide (t.width = 1)) &&
      (decide (rowLen = 0) || decide (t.offset + t.width ≤ rowLen))
def Predicate.ok (p : Predicate) (rowLen : Nat) : Bool := decide (p.result % 16 = 0) && p.terms.all fun t => t.ok rowLen
/-- A field value under SIGNED (R143). -/
def widened (signed : Bool) (n : Nat) (v : Nat) : Int := if signed then signedOf (8 * n) v else ((v % 2 ^ (8 * n) : Nat) : Int)
/-- A term on a row (R143). -/
def Term.eval (t : Term) (row : List Byte) : Bool :=
  let f := widened t.signed t.width (fieldAt row t.offset t.width)
  let lo := widened t.signed t.width t.lo
  let hi := widened t.signed t.width t.hi
  match t.cmp with
  | 0 => decide (f = lo)
  | 1 => decide (f ≠ lo)
  | 2 => decide (f < lo)
  | 3 => decide (f ≤ lo)
  | 4 => decide (lo < f)
  | 5 => decide (lo ≤ f)
  | 6 => decide (lo ≤ f) && decide (f ≤ hi)
  | 7 => let v := fieldAt row t.offset 1; bitOf (t.set.getD (v / 8) 0).toNat (v % 8)
  | 8 => true
  | _ => false
def joined (orJoin a b : Bool) : Bool := if orJoin then a || b else a && b
/-- A row passes (R141). -/
def Predicate.passes (p : Predicate) (row : List Byte) : Bool :=
  let t (i : Nat) : Bool := match p.terms[i]? with
    | some t => t.eval row
    | none => true
  joined p.jout (joined p.j01 (t 0) (t 1)) (joined p.j23 (t 2) (t 3))
/-- A partition descriptor's 64 bytes with its destination table's bytes (R198, R200). -/
def partOf (b table : List Byte) : PartDesc :=
  { keyOff := fieldAt b 0 1, keyLen := fieldAt b 1 1, k := fieldAt b 2 1, selEn := bitOf (fieldAt b 3 1) 0,
    seed := fieldAt b 4 4, sel := fieldAt b 8 8,
    dtable := (List.range (table.length / 4)).map fun d => fieldAt table (4 * d) 4 }
def PartDesc.ok (d : PartDesc) (rowLen : Nat) : Bool :=
  decide (1 ≤ d.keyLen) && decide (d.keyLen ≤ 16) && decide (d.k ≤ 12) &&
    (decide (rowLen = 0) || decide (d.keyOff + d.keyLen ≤ rowLen))
/-- The destination of a row: the top K bits of the CRC-32C of its key (R199). -/
def PartDesc.dest (d : PartDesc) (row : List Byte) : Nat :=
  crcFrom d.seed ((row.drop d.keyOff).take d.keyLen) / 2 ^ (32 - d.k)
def valueWidth (fmt : Nat) : Nat := 2 ^ bitsOf fmt 0 2
/-- A tally descriptor's 64 bytes, with the partition descriptor of KEYMODE 1 (R211). -/
def tallyOf (b : List Byte) (part : Option PartDesc) : TallyDesc :=
  { keyOff := fieldAt b 1 1, valOff := fieldAt b 2 1, valWidth := valueWidth (fieldAt b 3 1),
    signed := bitOf (fieldAt b 3 1) 2, dotA := fieldAt b 4 1, dotB := fieldAt b 5 1, dotEn := bitOf (fieldAt b 6 1) 0,
    aSigned := bitOf (fieldAt b 6 1) 1, bSigned := bitOf (fieldAt b 6 1) 2, selEn := bitOf (fieldAt b 7 1) 0,
    sel := fieldAt b 8 8, part := part }
def TallyDesc.ok (t : TallyDesc) (rowLen : Nat) : Bool :=
  decide (t.valWidth ≤ 4) &&
  (decide (rowLen = 0) ||
    ((t.part.isSome || decide (t.keyOff < rowLen)) && decide (t.valOff + t.valWidth ≤ rowLen) &&
      (!t.dotEn || (decide (t.dotA < rowLen) && decide (t.dotB < rowLen))))) &&
  (match t.part with
   | some d => d.ok rowLen
   | none => true)
/-- The group of a row (R211). -/
def TallyDesc.group (t : TallyDesc) (row : List Byte) : Nat :=
  match t.part with
  | some d => d.dest row % 256
  | none => fieldAt row t.keyOff 1
/-- A selected row's update of its group (R212). -/
def TallyDesc.add (t : TallyDesc) (a : Acc) (row : List Byte) : Acc :=
  let v := widened t.signed t.valWidth (fieldAt row t.valOff t.valWidth)
  let p := widened t.aSigned 1 (fieldAt row t.dotA 1) * widened t.bSigned 1 (fieldAt row t.dotB 1)
  { count := a.count + 1, sum := a.sum + v,
    min := some (match a.min with | some m => if v < m then v else m | none => v),
    max := some (match a.max with | some m => if m < v then v else m | none => v),
    dot := if t.dotEn then a.dot + p else a.dot }
def outOfRange (signed : Bool) (v : Int) : Bool :=
  if signed then decide (v < -(2 ^ 63 : Int)) || decide ((2 ^ 63 : Int) ≤ v) else decide (v < 0) || decide ((2 ^ 64 : Int) ≤ v)
/-- A group record of the result block (R213). -/
def TallyDesc.record (t : TallyDesc) (a : Acc) : List Byte :=
  let empty := if t.signed then (2 ^ 63 - 1, 2 ^ 63) else (2 ^ 64 - 1, 0)
  let mn := match a.min with | some v => wrapOf 64 v | none => empty.1
  let mx := match a.max with | some v => wrapOf 64 v | none => empty.2
  leBytes 8 a.count ++ leBytes 8 (wrapOf 64 a.sum) ++ leBytes 8 mn ++ leBytes 8 mx ++ leBytes 8 (wrapOf 64 a.dot) ++
    leBytes 1 (boolBit (outOfRange t.signed a.sum) 0 + boolBit (outOfRange (t.aSigned || t.bSigned) a.dot) 1) ++ leBytes 23 0

/-! ## An op's bytes -/

def opcodeOf (b : List Byte) : Nat := fieldAt b 0 1
def opAck (b : List Byte) : Bool := bitOf (fieldAt b 1 1) 0
def opCnt (b : List Byte) : Bool := bitOf (fieldAt b 1 1) 1
def opEvt (b : List Byte) : Bool := bitOf (fieldAt b 1 1) 2
def opEvtWire (b : List Byte) : Nat := bitsOf (fieldAt b 1 1) 4 4
def opCounter (b : List Byte) : Nat := fieldAt b 2 2
/-- The assigned opcodes (R86). -/
def opcodeKnown (n : Nat) : Bool := decide (n ≤ 9) || (decide (0x10 ≤ n) && decide (n ≤ 0x17)) || decide (n = 0x1F)

/-- The fields at 04h to 1Fh of a data op hold defined values (check 1 of R124). -/
def dataFieldsOk (b : List Byte) : Bool :=
  match opcodeOf b with
  | 2 => (decide (1 ≤ fieldAt b 4 1) && decide (fieldAt b 4 1 ≤ 8)) || decide (fieldAt b 4 1 = 32)
  | 3 => decide (fieldAt b 0x18 8 % 16 = 0)
  | 4 => decide (fieldAt b 4 2 ≤ 256) && decide (fieldAt b 6 1 ≤ 1)
  | 6 => decide (fieldAt b 4 2 ≤ 256) && decide (fieldAt b 0x18 8 % 16 = 0)
  | 7 => decide (fieldAt b 4 2 ≤ 256) && decide (fieldAt b 0x18 8 % 64 = 0)
  | 8 => decide (fieldAt b 4 1 ≤ 16)
  | 9 => decide (fieldAt b 4 1 ≤ 16)
  | _ => true
def decodeWidth (b : List Byte) : Nat := 2 ^ bitsOf (fieldAt b 4 1) 0 2
/-- The operand structures of a data op in the order of its address fields (R123): address, length, alignment. A
structure that another names (a destination table, KEYMODE 1's partition descriptor) follows it. -/
def State.structs (s : State) (b : List Byte) : List (Nat × Nat × Nat) :=
  let a8 := fieldAt b 8 8
  let a10 := fieldAt b 0x10 8
  let a18 := fieldAt b 0x18 8
  let list (a : Nat) : Nat × Nat × Nat := (a, 16 * fieldAt b 4 1, 64)
  match opcodeOf b with
  | 1 => [(a8, 64, 64), (a10, 64, 64)]
  | 2 => (if fieldAt b 4 1 = 32 then [(a8, 32, 32)] else []) ++ [(a10, 64, 64)]
  | 3 => [(a8, 64, 64), (a10, 64, 64)]
  | 4 => [(a8, 64, 64), (a10, 64, 64), (a18, 256, 64)]
  | 5 => [(a8, 64, 64), (a10, 64, 64), (a18, 256 * decodeWidth b, 64)]
  | 6 =>
    let d := s.bytesAt (s.toLocal a10) 64
    [(a8, 64, 64), (a10, 64, 64)] ++ (if fieldAt d 2 1 ≤ 12 then [(fieldAt d 0x10 8, 4 * 2 ^ fieldAt d 2 1, 64)] else [])
  | 7 =>
    let d := s.bytesAt (s.toLocal a10) 64
    [(a8, 64, 64), (a10, 64, 64)] ++ (if fieldAt d 0 1 = 1 then [(fieldAt d 0x10 8, 64, 64)] else [])
  | 8 => [list a8, (a10, 64, 64)]
  | 9 => [(a8, 64, 64), list a10]
  | _ => []

/-- The beats of the stream bytes [lo, hi) of a side: runs of consecutive offsets in one 128 B block (R131), as
(first offset, count, address of the first byte). -/
def sideBeats (side : Side) : Nat → Nat → List (Nat × Nat × Nat)
  | 0, _ => []
  | n + 1, lo =>
    let a := side.addr lo
    match sideBeats side n (lo + 1) with
    | [] => [(lo, 1, a)]
    | (o, c, a') :: r => if beatOf a = beatOf a' then (lo, c + 1, a) :: r else (lo, 1, a) :: (o, c, a') :: r

/-- Where an access to a device address goes: a memory port, another node, a stash port for writes, or nowhere. -/
inductive Place where
  | port (p : Nat)
  | stash (n : Nat)
  | node (n : Nat)
  | nowhere
  deriving DecidableEq, Repr

/-- The place of an access (R22, R418, R419, R426). -/
def State.place (s : State) (write : Bool) (a : Nat) : Place :=
  if s.isRemote a then .node (nodeOf a) else
    match s.portOf (localOf a) with
    | none => .nowhere
    | some p =>
      if write then
        match s.stashTakes (localOf a) with
        | some n => .stash n
        | none => .port p
      else .port p
/-- The distinct places of a list of beats. -/
def State.places (s : State) (write : Bool) (l : List (Nat × Nat × Nat)) : List Place :=
  (l.map fun b => s.place write b.2.2).eraseDups
/-- The bursts a row's read side needs: for each place, one per 32 beats (R467). -/
def State.burstsOf (s : State) (l : List (Nat × Nat × Nat)) : Nat :=
  (s.places false l).foldl (fun n p => n + ((l.filter fun b => s.place false b.2.2 = p).length + 31) / 32) 0
/-- The row at a stream offset can be carried (R467): at most 64 beats, two places and two bursts. The beat of its bitmap's byte, read
at its own place as PROOF's second side is, counts among the 64 (`bits` is 1 where the op has a bitmap; DESIGN CHOICE, assumption
log 94). -/
def State.rowOk (s : State) (side : Side) (bits rowLen lo : Nat) : Bool :=
  let l := sideBeats side rowLen lo
  decide (l.length + bits ≤ 64) && decide ((s.places false l).length ≤ 2) && decide (s.burstsOf l ≤ 2)
/-- The row is a split row (R467): the read beats that R216 bounds by 32 include its bitmap's. -/
def State.rowSplit (s : State) (side : Side) (bits rowLen lo : Nat) : Bool :=
  let l := sideBeats side rowLen lo
  decide (32 < l.length + bits) || decide (1 < (s.places false l).length)

/-! ## Check 2 to check 4 of R124 -/

/-- DETAIL of BAD_PATTERN (R246). -/
def badPattern (reason value : Nat) : Status × Nat := (.badPattern, reason * 2 ^ 48 + value % 2 ^ 48)
def badOp (b : List Byte) : Status × Nat := (.badOp, fieldAt b 0 8)

/-- The op that the bytes and their structures describe: its fault, or (none) zero work, or the op and its amount of
work (R124, R129, R144, R133, R467). Where several causes of check 4 apply, reason 02h comes before 03h, 03h before 01h, and 08h
last (DESIGN CHOICE: R129, R133 and R246 give no order, assumption log 97). -/
def State.decodeOp (s : State) (b : List Byte) (srcAdv dstAdv : Int) : Except (Status × Nat) (Option (Op × Nat)) :=
  let at64 (o : Nat) (n : Nat) : List Byte := s.bytesAt (s.toLocal (fieldAt b o 8)) n
  let big (t : Nat) : Bool := decide (2 ^ 48 < t)
  let rowLen := fieldAt b 4 2
  let rowsOk (src : Side) (sel : Bool) (t : Nat) : Bool :=
    (List.range (t / rowLen)).all fun i => s.rowOk src (if sel then 1 else 0) rowLen (i * rowLen)
  let rowFault : Status × Nat := badPattern 8 (Config.reason08Value s.free).toNat
  match opcodeOf b with
  | 1 =>
    match patternOf (at64 8 64) srcAdv, patternOf (at64 0x10 64) dstAdv with
    | some x, some y =>
      if x.total = 0 then .ok none
      else if big x.total || big y.total then .error (badPattern 2 0)
      else if x.total ≠ y.total then .error (badPattern 1 y.total)
      else .ok (some (.move (.pattern x) (.pattern y), x.total))
    | _, _ => .error (badOp b)
  | 2 =>
    match patternOf (at64 0x10 64) dstAdv with
    | some y =>
      let bytes := if fieldAt b 4 1 = 32 then at64 8 32 else (b.drop 8).take (fieldAt b 4 1)
      if y.total = 0 then .ok none
      else if big y.total then .error (badPattern 2 0)
      else .ok (some (.fill bytes (.pattern y), y.total))
    | none => .error (badOp b)
  | 3 =>
    match patternOf (at64 8 64) srcAdv, patternOf (at64 0x10 64) dstAdv with
    | some x, some y =>
      if x.total = 0 then .ok none
      else if big x.total || big y.total then .error (badPattern 2 0)
      else if x.total ≠ y.total then .error (badPattern 1 y.total)
      else .ok (some (.proof (bitOf (fieldAt b 4 1) 0) (.pattern x) (.pattern y) (fieldAt b 0x18 8), x.total))
    | _, _ => .error (badOp b)
  | 4 =>
    match patternOf (at64 8 64) srcAdv, patternOf (at64 0x10 64) dstAdv with
    | some x, some y =>
      let p := predicateOf (at64 0x18 256)
      let bitmap := fieldAt b 6 1 = 1
      if !p.ok rowLen then .error (badOp b)
      else if rowLen = 0 ∨ x.total = 0 then .ok none
      else if big x.total || big y.total then .error (badPattern 2 0)
      else if x.total % rowLen ≠ 0 then .error (badPattern 3 x.total)
      else if (if bitmap then y.total = (x.total / rowLen + 7) / 8 else x.total ≤ y.total) then
        if rowsOk (.pattern x) false x.total then .ok (some (.sift rowLen bitmap (.pattern x) (.pattern y) p, x.total))
        else .error rowFault
      else .error (badPattern 1 y.total)
    | _, _ => .error (badOp b)
  | 5 =>
    match patternOf (at64 8 64) srcAdv, patternOf (at64 0x10 64) dstAdv with
    | some x, some y =>
      let w := decodeWidth b
      if x.total = 0 then .ok none
      else if big x.total || big y.total then .error (badPattern 2 0)
      else if y.total ≠ w * x.total then .error (badPattern 1 y.total)
      else .ok (some (.decode w (.pattern x) (.pattern y) (at64 0x18 (256 * w)), x.total))
    | _, _ => .error (badOp b)
  | 6 =>
    match patternOf (at64 8 64) srcAdv with
    | some x =>
      let db := at64 0x10 64
      let d := partOf db (if fieldAt db 2 1 ≤ 12 then s.bytesAt (s.toLocal (fieldAt db 0x10 8)) (4 * 2 ^ fieldAt db 2 1) else [])
      if !d.ok rowLen then .error (badOp b)
      else if rowLen = 0 ∨ x.total = 0 then .ok none
      else if big x.total then .error (badPattern 2 0)
      else if x.total % rowLen ≠ 0 then .error (badPattern 3 x.total)
      else if rowsOk (.pattern x) d.selEn x.total then .ok (some (.part rowLen (.pattern x) d (fieldAt b 0x18 8), x.total))
      else .error rowFault
    | none => .error (badOp b)
  | 7 =>
    match patternOf (at64 8 64) srcAdv with
    | some x =>
      let db := at64 0x10 64
      let d := tallyOf db (if fieldAt db 0 1 = 1 then some (partOf (s.bytesAt (s.toLocal (fieldAt db 0x10 8)) 64) []) else none)
      if 1 < fieldAt db 0 1 ∨ !d.ok rowLen then .error (badOp b)
      else if rowLen = 0 ∨ x.total = 0 then .ok none
      else if big x.total then .error (badPattern 2 0)
      else if x.total % rowLen ≠ 0 then .error (badPattern 3 x.total)
      else if rowsOk (.pattern x) d.selEn x.total then .ok (some (.tally rowLen (.pattern x) d (fieldAt b 0x18 8), x.total))
      else .error rowFault
    | none => .error (badOp b)
  | 8 =>
    match patternOf (at64 0x10 64) dstAdv with
    | some y =>
      let l := elementsOf (at64 8 (16 * fieldAt b 4 1)) (fieldAt b 4 1)
      if elemTotal l = 0 then .ok none
      else if big (elemTotal l) || big y.total then .error (badPattern 2 0)
      else if elemTotal l ≠ y.total then .error (badPattern 1 y.total)
      else .ok (some (.gather (.elements l) (.pattern y), elemTotal l))
    | none => .error (badOp b)
  | _ =>
    match patternOf (at64 8 64) srcAdv with
    | some x =>
      let l := elementsOf (at64 0x10 (16 * fieldAt b 4 1)) (fieldAt b 4 1)
      if x.total = 0 then .ok none
      else if big x.total || big (elemTotal l) then .error (badPattern 2 0)
      else if elemTotal l ≠ x.total then .error (badPattern 1 (elemTotal l))
      else .ok (some (.scatter (.pattern x) (.elements l), x.total))
    | none => .error (badOp b)

end Sys2Proof.Machine
end

