-- ==== Sys2Proof/Machine/Channel.lean ====
section
/-! DEFINITION. Operations on a channel: its item and op, fetches (R120), halts (R249), RULE scopes (R110), doorbell
answers and publications (R40, R43), journal waits. -/
namespace Sys2Proof.Machine

/-! ## Items -/

def State.modCtx (s : State) (c : Nat) (f : Ctx → Ctx) : State := s.setCtx c (f (s.ctx c))
def State.item (s : State) (c : Nat) : Option Item := (s.ctx c).items.head?
def Ctx.modItem (x : Ctx) (f : Item → Item) : Ctx :=
  match x.items with
  | [] => x
  | it :: r => { x with items := f it :: r }
def State.modItem (s : State) (c : Nat) (f : Item → Item) : State := s.modCtx c fun x => x.modItem f
/-- Legacy slot k acts as channel 262,144 + k (R436). -/
def legacyBase : Nat := 262144

/-- The channel and op serial of a data access. -/
def Owner.op : Owner → Option (Nat × Nat)
  | .opRead c n _ => some (c, n)
  | .opWrite c n _ => some (c, n)
  | .result c n => some (c, n)
  | .piece c n _ _ => some (c, n)
  | .seal c n _ => some (c, n)
  | _ => none
/-- The channel an access of an item serves: its data, counters, fetches and ending steps. -/
def Owner.channel : Owner → Option Nat
  | .opRead c _ _ => some c
  | .opWrite c _ _ => some c
  | .result c _ => some c
  | .piece c _ _ _ => some c
  | .seal c _ _ => some c
  | .fetch c => some c
  | .ending c => some c
  | .counterRead c => some c
  | .counterWrite c => some c
  | _ => none
/-- The owners of every access that is waiting or outstanding, at memory ports, stash ports and on other nodes. -/
def State.owners (s : State) : List Owner :=
  (s.ports.flatMap fun e =>
      e.2.rd.queue.map (·.owner) ++ (e.2.rd.out.filter fun a => !a.discard).map (·.owner) ++
      e.2.wr.queue.map (·.owner) ++ (e.2.wr.out.filter fun a => !a.discard).map (·.owner)) ++
    (s.stash.flatMap fun e => e.2.tiles.map (·.owner)) ++ s.fab.remotes.map (·.owner)
/-- An access of the op waits or is outstanding. -/
def State.opAccess (s : State) (c n : Nat) : Bool := s.owners.any fun o => o.op = some (c, n)
/-- An access of the channel waits or is outstanding. -/
def State.chanAccess (s : State) (c : Nat) : Bool := s.owners.any fun o => o.channel = some c

/-! ## RULEs (R110, R111) and the commit's RULE point (R383) -/

/-- The serial of the op in progress on a channel that has issued an access. -/
def State.opSerial (s : State) (c : Nat) : Option Nat :=
  if legacyBase ≤ c then (s.slot (c - legacyBase)).run.bind fun r => if r.lanes.isEmpty then none else some r.serial
  else match s.item c with
    | some it => it.opSerial
    | none => none
/-- The channels of the device: contexts held and legacy slots held. -/
def State.channels (s : State) : List Nat := s.ctxs.map (·.1) ++ s.sched.slots.map fun e => legacyBase + e.1
/-- The ops, among channels the test accepts, that have issued an access and are not wholly acknowledged. -/
def State.earlierOps (s : State) (inScope : Nat → Bool) : OpSet :=
  ((s.channels.filterMap fun c => (s.opSerial c).map fun n => (c, n)) ++ s.owners.filterMap (·.op)).eraseDups.filter
    fun e => inScope e.1
/-- The op has effects that are not acknowledged (R110). -/
def State.opUnacked (s : State) (e : Nat × Nat) : Bool := s.opSerial e.1 = some e.2 || s.opAccess e.1 e.2
/-- The channel is in a RULE's scope (R111): STREAM, GROUP, or every channel. -/
def State.inScope (s : State) (scope group rctx c : Nat) : Bool :=
  match scope with
  | 0 => decide (c = rctx)
  | 1 => decide (c < legacyBase) && decide ((s.ctx c).f.group = group)
  | _ => true
/-- A RULE, or a commit's RULE point, holds the channel's next access (R110, R383). -/
def State.held (s : State) (c : Nat) : Bool :=
  let mine (l : OpSet) : Bool := match s.opSerial c with
    | some n => l.contains (c, n)
    | none => false
  (s.sched.rules.any fun r => decide (r.ctx ≠ c) && s.inScope r.scope r.group r.ctx c && !mine r.earlier) ||
    (match s.ctl.rulePoint with
     | some l => !mine l
     | none => false)
/-- Give the channel's op a serial when it issues its first access. -/
def State.claim (s : State) (c : Nat) : State :=
  match s.opSerial c with
  | some _ => s
  | none =>
    let n := s.sched.nextSerial
    ({ s with sched := { s.sched with nextSerial := n + 1 } } : State).modItem c fun it => { it with opSerial := some n }

/-! ## Halts (R249) and stalls (R264, R327) -/

/-- A fault of the channel's op is found: it halts (R249), and HALT_COMPLETE reports. -/
def State.fail (s : State) (c : Nat) (f : FaultRec) : State :=
  s.modCtx c fun x => { x with halting := true, faults := x.faults ++ [f] }
def State.halt (s : State) (c : Nat) (e : Status × Nat) : State := s.fail c { status := e.1, detail := e.2 }
/-- The channel stalls in WAITING (R247, R264). -/
def State.stall (s : State) (c : Nat) (w : WaitOn) : State := s.modCtx c fun x => { x with waitOn := some w, state := .waiting }
/-- The wait ends and the channel runs on. -/
def State.unstall (s : State) (c : Nat) : State :=
  s.modCtx c fun x => { x with waitOn := none, state := if x.state = .waiting then .running else x.state }

/-! ## Fetches (R95, R120, R123, R261, R264) -/

/-- The 128 B beats that cover n bytes from a local address. -/
def beatsFrom (a n : Nat) : List Nat :=
  if n = 0 then [] else (List.range ((a + n - 1) / 128 - a / 128 + 1)).map fun i => beatOf a + 128 * i
/-- The first port among the beats whose domain takes no access. -/
def State.downPort (s : State) (beats : List Nat) : Option Nat :=
  beats.findSome? fun a => match s.portOf a with
    | some p => if s.portDown p then some p else none
    | none => none
/-- The beat is of the item's present block (R120): one of its first two, or one that holds ops. -/
def Item.ownBeat (it : Item) (b : Nat) : Bool :=
  let a := localOf it.blockAddr
  decide (beatOf a ≤ b) && (decide (b ≤ beatOf a + 128) || decide (b < a + 0x40 + 0x20 * it.opCount))
/-- A read of the beat for the channel's item waits or is outstanding. -/
def State.fetchOut (s : State) (c b : Nat) : Bool :=
  s.ports.any fun e => (e.2.rd.queue.any fun r => r.owner = .fetch c && r.beats.any fun x => decide (x.addr = b)) ||
    e.2.rd.out.any fun a => a.owner = .fetch c && !a.discard && decide (a.beat.addr = b)
/-- SCHED reads beats for the channel's item, but for those on their way. -/
def State.readBeats (s : State) (c : Nat) (bs : List Nat) : State :=
  (bs.filter fun b => !s.fetchOut c b).foldl (fun t b => t.presentRead (.fetch c) schedReq (s.ctx c).f.cls b) s
/-- The item goes on with what its fetch waited for: an operand structure (R123), or the op. -/
def Item.fetchDone (it : Item) : Item :=
  if it.fetch = .structs then { it with fetch := .got, structIdx := it.structIdx + 1, need := [] } else { it with fetch := .got, need := [] }
/-- SCHED reads n bytes for the channel's item: the window check, the range check and the domain stall, then one access per
beat; bytes within the beats it has of the block are not read again (R123). `next` is the stage of the fetch while it is
out. -/
def State.fetchBytes (s : State) (c a n : Nat) (next : Fetch) : State :=
  match s.firstDenied (s.ctx c).f.windowSet rightRead a n with
  | some d => s.fail c { status := .protection, detail := d, cause := 5, address := d }
  | none =>
    let bs := beatsFrom (localOf a) n
    let known : Bool := match s.item c with
      | some it => bs.all fun b => it.beats.contains b
      | none => false
    if known then s.modItem c fun it => Item.fetchDone { it with fetch := next }
    else match bs.find? fun b => (s.portOf b).isNone with
    | some b => s.fail c { status := .fetchFault, detail := b, cause := 1, address := b }
    | none =>
      match s.downPort bs with
      | some p => s.stall c (.domain p a 0)
      | none => (s.readBeats c bs).modItem c fun it => { it with fetch := next, need := bs }
/-- SCHED fetches ahead of execution (R120): the ops that share the block's first two beats with its header, then the ops up
to 32 from the one at the index. A beat that it may not or cannot read now is left for the op that needs it (R95). -/
def State.fetchAhead (s : State) (c : Nat) : State :=
  let x := s.ctx c
  match x.items with
  | [] => s
  | it :: _ =>
    if x.halting ∨ x.state ≠ .running ∨ (it.fetch ≠ .asked ∧ it.fetch ≠ .got) then s
    else
      let a := localOf it.blockAddr
      let lo := if it.opCount = 0 then a else a + 0x40 + 0x20 * it.opIdx
      let hi := if it.opCount = 0 then beatOf a + 256 else a + 0x40 + 0x20 * min it.opCount (it.opIdx + 32)
      s.readBeats c ((beatsFrom lo (hi - lo)).filter fun b =>
        let first := max b lo
        !it.beats.contains b && (s.portOf b).isSome && (s.downPort [b]).isNone &&
          (s.firstDenied x.f.windowSet rightRead first (min (b + 128) hi - first)).isNone)
/-- SCHED fetches the op at the item's index, or the block's header where it is not known; past the last op the END
is implicit and nothing is fetched (R90). -/
def State.askFetch (s : State) (c : Nat) : State :=
  let x := s.ctx c
  match x.items with
  | [] => s
  | it :: _ =>
    if it.fetch ≠ .none ∨ it.ended ∨ x.halting ∨ x.state ≠ .running ∨ !x.cached then s
    else if it.opCount ≠ 0 ∧ it.opCount ≤ it.opIdx then s.modItem c fun i => { i with fetch := .got }
    else if it.opCount = 0 then
      ((s.modItem c fun i => { i with beats := [] }).fetchBytes c it.blockAddr 0x40 .asked).fetchAhead c
    else (s.fetchBytes c (it.blockAddr + 0x40 + 0x20 * it.opIdx) 0x20 .asked).fetchAhead c
/-- The block's header has come: OP_COUNT, where 0 means 256, and FLAGS (R74). -/
def State.headerKnown (s : State) (it : Item) : Item :=
  let n := (s.byteAt (localOf it.blockAddr + 1)).toNat
  { it with fetch := .none, need := [], opCount := if n = 0 then 256 else n, flags := s.numAt (localOf it.blockAddr + 2) 2 }
/-- A beat of SCHED's fetch has come (R120): with the last one that the item waits for it goes on. -/
def State.beatFetched (s : State) (c b : Nat) : State :=
  match s.item c with
  | none => s
  | some it =>
    let i : Item := { it with beats := if it.ownBeat b && !it.beats.contains b then it.beats ++ [b] else it.beats, need := it.need.filter (· ≠ b) }
    let ends := !it.need.isEmpty && i.need.isEmpty
    let s1 := s.modItem c fun _ => if !ends then i else if it.fetch = .asked ∧ it.opCount = 0 then s.headerKnown i else i.fetchDone
    if ends then s1.askFetch c else s1
/-- The address of a ring slot (R71). -/
def slotAddr (f : CtxFields) (i : Nat) : Nat := f.ringBase + i % f.ringSize * f.slotSize
def State.nextSlot (s : State) (c : Nat) : Nat := (s.ctx c).consumer.toNat + (s.ctx c).accepting.length
/-- The ring lies in windows with read rights (check 1 of R77). -/
def State.ringReadable (s : State) (f : CtxFields) : Bool :=
  (s.firstDenied f.windowSet rightRead f.ringBase (f.ringSize * f.slotSize)).isNone
/-- Record a halt in C010h (R267). -/
def State.recordFault (s : State) (c : Nat) (f : FaultRec) (p seq : Nat) : State :=
  s.modCtx c fun x => { x with record :=
    { status := f.status.code, cause := f.cause, port := f.port, attempts := min 255 f.attempts, address := f.address,
      progress := p, seq := seq } }
/-- Answer a doorbell (R43, R423). -/
def State.answerBell (s : State) (c : Nat) (b : Bell) (outcome : Nat) : State :=
  s.respondBell c b.id b.refused outcome
/-! ## Publication (R32, R40, R263) -/

/-- The acceptance word's 32 bytes (R40). -/
def acceptWordBytes (s : State) (c : Nat) : List Byte :=
  let x := s.ctx c
  let before := x.acceptMode = 0
  let epoch := if before then (if s.journaled then s.jrn.epoch else 0) else x.acceptEpoch
  let mode := if before then s.ctl.rulesOf.code else x.acceptMode
  leBytes 8 x.accepted ++ leBytes 8 x.completed ++ leBytes 4 epoch ++ leBytes 2 x.refused ++ leBytes 1 mode ++ leBytes 9 0
/-- Write the acceptance word; while a write of it is on its way, the occasion waits for that write (R40, R42). -/
def State.writeWord (s : State) (c : Nat) : State :=
  if s.accessFor fun o => o = .acceptWord c then s.modCtx c fun x => { x with wordDirty := true }
  else
    let x := s.ctx c
    (s.modCtx c fun y => { y with wordDirty := false, wordRetry := false }).presentWrite (.acceptWord c) schedReq x.f.cls
      x.f.acceptAddr (acceptWordBytes s c)

/-! ## Headers (R77, R254, R261) -/

/-- Cut the context's undecided ranges: every waiting doorbell is answered with the outcome, one that announced nothing with
DECIDED, and the producer index falls back (R43, R72, R424). -/
def State.cutBells (s : State) (c outcome : Nat) (producer : BitVec 32) : State :=
  let bells := (s.ctx c).bells
  let s1 := (bells.foldl (fun t b => t.answerBell c b (if b.empty then 0 else outcome)) s).modCtx c fun x =>
    { x with bells := [], accepting := [], header := .none, headerFault := none, producer := producer }
  if bells.any fun b => decide (0 < b.refused) then s1.writeWord c else s1
/-- A halt before acceptance (R77, R254): the slot stays announced, the doorbells are answered HALTED. -/
def State.haltHeader (s : State) (c : Nat) (f : FaultRec) : State :=
  let seq := s.numAt (slotAddr (s.ctx c).f (s.nextSlot c) + 8) 8
  let s1 := (s.cutBells c 4 (BitVec.ofNat 32 (s.nextSlot c + 1))).recordFault c f 0 seq
  (s1.modCtx c fun x => { x with state := .halted, headerHalt := true, waitOn := none }).raise .channelHalted
def State.askHeader (s : State) (c : Nat) : State :=
  let x := s.ctx c
  if decide (x.producer = BitVec.ofNat 32 (s.nextSlot c)) || !x.cached || x.header ≠ .none || x.headerHalt || x.exhausted then s
  else
    let a := slotAddr x.f (s.nextSlot c)
    if !s.ringReadable x.f then s.modCtx c fun y => { y with header := .got }
    else
      let bs := beatsFrom a (min x.f.slotSize (beatOf a + 256 - a))
      match bs.find? fun b => (s.portOf b).isNone with
      | some b =>
        let f : FaultRec := { status := .fetchFault, detail := b, cause := 1, address := b }
        if x.items.isEmpty && x.accepting.isEmpty then s.haltHeader c f
        else s.modCtx c fun y => { y with header := .got, headerFault := some f }
      | none =>
        match s.downPort bs with
        | some p =>
          if x.items.isEmpty && x.accepting.isEmpty then
            s.modCtx c fun y => { y with waitOn := some (.domain p a 0), state := if y.state = .paused then .paused else .waiting }
          else s
        | none =>
          bs.foldl (fun t b => t.presentRead (.header c) schedReq x.f.cls b) (s.modCtx c fun y => { y with header := .asked })

/-! ## The item in progress -/

/-- The bytes of the op at the item's index; the implicit END past the last op has OPCODE 1Fh and no flags (R90). -/
def Item.implicitEnd (it : Item) : Bool := decide (it.opCount ≠ 0) && decide (it.opCount ≤ it.opIdx)
def State.opBytes (s : State) (it : Item) : List Byte :=
  if it.implicitEnd then [0x1F] ++ List.replicate 31 0
  else s.bytesAt (localOf it.blockAddr + 0x40 + 0x20 * it.opIdx) 32
/-- DETAIL of BAD_OP at the item's op (R81); an implicit END has no bytes (assumption log 20). -/
def State.opDetail (s : State) (it : Item) : Nat :=
  if it.implicitEnd then (Config.implicitEndDetail s.free).toNat else fieldAt (s.opBytes it) 0 8
def State.haltBadOp (s : State) (c : Nat) (it : Item) : State := (s.nextFree).halt c (.badOp, s.opDetail it)
/-- OP_INDEX of the item's op (R79, R90). -/
def Item.opIndex (it : Item) : Nat := min it.opIdx 255
def Item.blockNo (it : Item) : Nat := min it.block u16Max
/-- The bytes of a status area (R79). -/
def statusBytes (status opIndex element block detail : Nat) : List Byte :=
  leBytes 2 status ++ leBytes 1 opIndex ++ leBytes 1 element ++ leBytes 2 block ++ leBytes 2 0 ++ leBytes 8 detail
/-- The op in front of a running channel in the cache (R17), fetched and not yet done, while SCHED waits for nothing itself (R346,
R347). -/
def State.front (s : State) (c : Nat) : Option (Item × List Byte) :=
  let x := s.ctx c
  match x.items with
  | [] => none
  | it :: _ =>
    if x.cached ∧ x.state = .running ∧ !x.halting ∧ it.fetch = .got ∧ !it.opDone ∧ !it.ended ∧ !s.unitWaits schedIsland then some (it, s.opBytes it)
    else none
/-- Run an op command: on a channel whose front op the command names; an unassigned opcode halts (R86, R87). -/
def State.runOp (s : State) (c : Nat) (named : List Byte → Bool) (f : Item → List Byte → State) : State :=
  match s.front c with
  | none => s
  | some (it, b) =>
    if !opcodeKnown (opcodeOf b) then s.haltBadOp c it else if named b then f it b else s
def opIs (n : Nat) (b : List Byte) : Bool := decide (opcodeOf b = n)
/-- The op's own work is done; OP_COMPLETE follows. -/
def State.finishOp (s : State) (c : Nat) : State := s.modItem c fun it => { it with opDone := true }
/-- The op has delivered and moved bytes (R80, R81); a moved byte clears the link fuse (R96). -/
def State.credit (s : State) (c delivered : Nat) (moved : Bool) : State :=
  (s.modItem c fun it => { it with delivered := satAdd (2 ^ 64 - 1) it.delivered delivered, moved := it.moved || moved }).modCtx c
    fun x => { x with fuse := if moved then 0 else x.fuse }
/-- The sum of the loop advances (R93). -/
def Item.advance (it : Item) (src : Bool) : Int :=
  it.loops.foldl (fun n l => n + (l.pass : Int) * (if src then l.srcAdv else l.dstAdv)) 0

/-- The channel takes up its next accepted item, or pauses before it (R73, R251). -/
def State.beginNext (s : State) (c : Nat) : State :=
  let x := s.ctx c
  match x.items with
  | [] => s.modCtx c fun y => { y with state := if y.pauseBit then .paused else if y.headerHalt then .halted else .idle }
  | it :: _ =>
    if x.pauseBit then
      ((s.modCtx c fun y => { y with state := .paused }).recordFault c { status := .paused } 0 it.seq).presentWrite
        (.statusNow c) schedReq x.f.cls (it.slotAddr + 0x10) (statusBytes Status.paused.code 0 0 0 0)
    else (s.modCtx c fun y => { y with state := .running, fuse := 0, waitOn := none }).askFetch c

end Sys2Proof.Machine
end

