-- ==== Sys2Proof/Machine/Bursts.lean ====
section
/-! DEFINITION. Segments and bursts: the cut of R131 and R467, the sides of an op, the issue of one segment (R131, R218,
R222, R264, R397, R419, R426), requests to other nodes (R305, R326) and tiles (R365). -/
namespace Sys2Proof.Machine

/-! ## The sides of an op -/

/-- The bitmap of a row op, where SEL_EN is 1 (R196). -/
def Op.bitmapAddr : Op → Option Nat
  | .part _ _ d _ => if d.selEn then some d.sel else none
  | .tally _ _ d _ => if d.selEn then some d.sel else none
  | _ => none
/-- The row length of a row op (R133). -/
def Op.rowLen : Op → Option Nat
  | .sift n _ _ _ _ => some n
  | .part n _ _ _ => some n
  | .tally n _ _ _ => some n
  | _ => none
/-- The sides an op reads along its own stream: (side number, side). -/
def Op.reads : Op → List (Nat × Side)
  | .move a _ => [(0, a)]
  | .fill _ _ => []
  | .proof _ a b _ => [(0, a), (1, b)]
  | .sift _ _ a _ _ => [(0, a)]
  | .decode _ a _ _ => [(0, a)]
  | .part _ a _ _ => [(0, a)]
  | .tally _ a _ _ => [(0, a)]
  | .gather l _ => [(0, l)]
  | .scatter a _ => [(0, a)]
  | .push _ a n _ _ _ => [(0, lineSide a n)]
/-- The side whose bytes an op writes along its own stream, with the bytes written per stream byte. -/
def Op.dest : Op → Option (Side × Nat)
  | .move _ d => some (d, 1)
  | .fill _ d => some (d, 1)
  | .decode w _ d _ => some (d, w)
  | .gather _ d => some (d, 1)
  | .scatter _ d => some (d, 1)
  | _ => none
/-- The op's segments run under a quoin lock (R216, R233). -/
def Op.locked : Op → Bool
  | .part .. => true
  | .tally .. => true
  | .push .. => true
  | _ => false
/-- The element list of a GATHER or SCATTER (R148). -/
def Op.list : Op → Option (List (Nat × Nat))
  | .gather (.elements l) _ => some l
  | .scatter _ (.elements l) => some l
  | _ => none
/-- The element at a stream offset (R149); 0 for other ops. -/
def Op.element (o : Op) (k : Nat) : Nat := match o.list with
  | some l => (elemAt l 0 k).1
  | none => 0
/-- The stream offset at which element i begins, O_i of R149. -/
def elemStart (l : List (Nat × Nat)) (i : Nat) : Nat := elemTotal (l.take i)

/-! ## The cut (R131, R467) -/

/-- The place, block and beat count of a side that is being cut. -/
abbrev CutState := Option (Place × Nat × Nat)
/-- Add a stream byte to a side of a segment: none where its place differs or a 33rd beat would be needed. -/
def State.cutStep (s : State) (write : Bool) (st : CutState) (a : Nat) : Option CutState :=
  match st with
  | none => some (some (s.place write a, beatOf a, 1))
  | some (p, b, n) =>
    if s.place write a ≠ p then none
    else if beatOf a = b then some st
    else if n < 32 then some (some (p, beatOf a, n + 1)) else none
/-- Add every byte of a list of addresses. -/
def State.cutSteps (s : State) (write : Bool) : CutState → List Nat → Option CutState
  | st, [] => some st
  | st, a :: r => match s.cutStep write st a with
    | some st' => State.cutSteps s write st' r
    | none => none
/-- The number of units, at most the fuel, that one segment takes from a unit on: a unit is `u` stream bytes of each
read side and `w` bytes of the destination for each. -/
def State.cutUnits (s : State) (reads : List Side) (dst : Option (Side × Nat)) (u : Nat) :
    Nat → Nat → List CutState → CutState → Nat
  | 0, _, _, _ => 0
  | n + 1, lo, rs, d =>
    let bytes := (List.range u).map fun i => lo + i
    let rs' := (reads.zip rs).map fun p => s.cutSteps false p.2 (bytes.map p.1.addr)
    let d' := match dst with
      | some (side, w) => s.cutSteps true d ((List.range (u * w)).map fun i => side.addr (lo * w + i))
      | none => some d
    match d' with
    | none => 0
    | some d'' => if rs'.all (·.isSome) then 1 + State.cutUnits s reads dst u n (lo + u) (rs'.map fun r => r.getD none) d'' else 0
/-- The bytes of the selection bitmap that the rows of [lo, hi) need (R196): first byte and count. -/
def bitmapRange (rowLen lo hi : Nat) : Nat × Nat := (lo / rowLen / 8, (hi / rowLen + 7) / 8 - lo / rowLen / 8)
/-- The beats of the bitmap bytes that the rows of [lo, hi) need. -/
def bitmapBeats (a rowLen lo hi : Nat) : List (Nat × Nat × Nat) :=
  let r := bitmapRange rowLen lo hi
  sideBeats (lineSide a (r.1 + r.2)) r.2 r.1
/-- k rows from a stream offset need at most 32 read beats with their bitmap's (R216), and those of the bitmap, which are a read side
of their own (R196, R218; assumption log 94), lie at one place (R131). -/
def State.bitmapFits (s : State) (op : Op) (src : Side) (n lo k : Nat) : Bool :=
  match op.bitmapAddr with
  | none => true
  | some a =>
    let bs := bitmapBeats a n lo (lo + k * n)
    decide ((s.places false bs).length ≤ 1) && decide ((sideBeats src (k * n) lo).length + bs.length ≤ 32)
/-- The end of the segment that begins at a stream offset (R131): the longest the rule allows, cut at element
boundaries for a list (R149), at whole rows in the row model, a split row alone (R467), and for PUSH at whole items. -/
def State.cutEnd (s : State) (op : Op) (item total lo : Nat) : Nat :=
  let rest := total - lo
  let lim := match op.list with
    | some l => let e := elemAt l 0 lo; min rest ((l.getD e.1 (0, 0)).2 - e.2.2)
    | none => rest
  match op.rowLen with
  | some n =>
    let src := (op.reads.map (·.2)).headD (lineSide 0 0)
    let bits := if op.bitmapAddr.isSome then 1 else 0
    if s.rowSplit src bits n lo then lo + n
    else
      let rows := (List.range (min (4096 / n) (lim / n))).takeWhile fun i => !s.rowSplit src bits n (lo + i * n)
      let k := s.cutUnits [src] none n rows.length lo [none] none
      lo + n * (1 + (((List.range k).reverse.find? fun i => s.bitmapFits op src n lo (i + 1)).getD 0))
  | none =>
    let u := if item = 0 then 1 else item
    let reads := op.reads.map (·.2)
    lo + u * max 1 (s.cutUnits reads op.dest u (min (max 1 (4096 / u)) (lim / u)) lo (reads.map fun _ => none) none)

/-- Runs of ascending addresses among the stream bytes [lo, lo + n) of a side: (offset, count, first address). -/
def sideRuns (side : Side) : Nat → Nat → List (Nat × Nat × Nat)
  | 0, _ => []
  | n + 1, lo =>
    let a := side.addr lo
    match sideRuns side n (lo + 1) with
    | [] => [(lo, 1, a)]
    | (o, c, a') :: r => if addrAdd a 1 = a' ∧ a < a' then (lo, c + 1, a) :: r else (lo, 1, a) :: (o, c, a') :: r
/-- The lowest stream offset of [lo, lo + n) whose byte lies outside the channel's windows, with its address. -/
def State.deniedAt (s : State) (set right : Nat) (side : Side) (lo n : Nat) : Option (Nat × Nat) :=
  (sideRuns side n lo).findSome? fun r => (s.firstDenied set right r.2.2 r.2.1).map fun d => (r.1 + (d - r.2.2), d)

/-! ## Requests to other nodes (R305, R324, R326) -/

/-- Send a request and hold it until its answer (R326). A request without a route waits for one (R327). -/
def State.request (s : State) (o : Owner) (f : Frame) (offset len side first : Nat) : State :=
  let t := s.fab.nextTag
  let f' := { f with tag := t, src := s.nodeNum }
  let r : Remote := { tag := t, owner := o, frame := f', attempts := 1, offset := offset, len := len, side := side,
                      first := first, busErr := !s.routed f.dest }
  ({ s with fab := { s.fab with nextTag := (t + 1) % 65536, remotes := s.fab.remotes ++ [r] } } : State).sendFrame f'
def reqFrame (type dest cls word : Nat) (payload : List Byte) : Frame :=
  { type := type, cls := cls, vl := 1, dest := dest, word := word, payload := payload }
/-- The WR_REQ frames of bytes from a local address (R305): whole beats in frames of up to 1,024 B, parts of a beat in
MASKED frames: (offset, count, frame). The fuel bounds the frames. -/
def maskedFrame (d cls a : Nat) (bs : List Byte) : Frame :=
  { reqFrame 0x12 d cls a
      (leBytes 16 ((2 ^ bs.length - 1) * 2 ^ (a % 128)) ++ List.replicate (a % 128) 0 ++ bs ++ List.replicate (128 - a % 128 - bs.length) 0) with
    masked := true }
def writeFramesFrom (d cls a : Nat) (bs : List Byte) : Nat → Nat → List (Nat × Nat × Frame)
  | 0, _ => []
  | n + 1, off =>
    let rest := bs.length - off
    let at' := a + off
    if rest = 0 then []
    else
      let count := if at' % 128 ≠ 0 ∨ rest < 128 then min rest (128 - at' % 128) else min 1024 (rest / 128 * 128)
      let part := (bs.drop off).take count
      (off, count, if at' % 128 ≠ 0 ∨ rest < 128 then maskedFrame d cls at' part else reqFrame 0x12 d cls at' part) ::
        writeFramesFrom d cls a bs n (off + count)
def writeFrames (d cls a : Nat) (bs : List Byte) : List (Nat × Nat × Frame) := writeFramesFrom d cls a bs (bs.length / 128 + 2) 0

/-! ## Presenting a side of a burst (R218, R230, R365, R426) -/

/-- What the accesses of a side carry: their owner, lane, class and lock. -/
structure Carrier where
  owner : Owner
  requester : Nat
  cls : Nat
  locked : Bool
  deriving DecidableEq, Repr
/-- Present the reads of the stream bytes [lo, lo + n) of a side: one request for each port and 32 beats, and RD_REQ
frames for other nodes. -/
def State.presentReads (s : State) (k : Carrier) (sideNo : Nat) (side : Side) (lo n : Nat) : State :=
  let bs := sideBeats side n lo
  let beat (b : Nat × Nat × Nat) : Beat :=
    { addr := beatOf (localOf b.2.2), len := b.2.1, side := sideNo, data := [], offset := b.1, first := b.2.2, attempts := 0 }
  (s.places false bs).foldl (fun t p => match p with
    | .port q =>
      let mine := (bs.filter fun b => s.place false b.2.2 = p).map beat
      (chunks 32 mine.length).foldl (fun u c => u.present q false
        { owner := k.owner, requester := k.requester, cls := k.cls, beats := (mine.drop c.1).take c.2, presented := none,
          locked := k.locked, block := none, parked := false }) t
    | .node d =>
      (sideRuns side n lo).foldl (fun u r => (chunks 4096 r.2.1).foldl (fun v c =>
        v.request k.owner (reqFrame 0x10 d k.cls (localOf (addrAdd r.2.2 (c.1 : Nat))) (leBytes 16 c.2)) (r.1 + c.1) c.2
          sideNo (addrAdd r.2.2 (c.1 : Nat))) u) t
    | _ => t) s
/-- The addresses rise, so that none occurs twice. -/
def rising : List (Nat × Byte) → Bool
  | a :: b :: r => decide (a.1 < b.1) && rising (b :: r)
  | _ => true
/-- The bytes of a beat in the order in which they land: where stream bytes share an address, any of them may be the last
(R130, assumption log 72). -/
def landing (k : Nat) (l : List (Nat × Byte)) : List (Nat × Byte) :=
  if rising l || (l.map (·.1)).eraseDups.length = l.length then l else l.drop (k % l.length) ++ l.take (k % l.length)
/-- Runs of ascending addresses among the stream bytes [lo, lo + n) of a side whose writes go to one place: (offset, count, first
address). -/
def State.placeRuns (s : State) (p : Place) (side : Side) : Nat → Nat → List (Nat × Nat × Nat)
  | 0, _ => []
  | n + 1, lo =>
    let a := side.addr lo
    let rest := State.placeRuns s p side n (lo + 1)
    if s.place true a ≠ p then rest
    else match rest with
      | [] => [(lo, 1, a)]
      | (o, c, a') :: r => if o = lo + 1 ∧ addrAdd a 1 = a' ∧ a < a' then (lo, c + 1, a) :: r else (lo, 1, a) :: (o, c, a') :: r
/-- Present the writes of bytes along a side from a stream offset: requests of at most 32 beats at ports, WR_REQ frames
of at most 1,024 bytes, and tiles of STASH_TILE bytes. What a stash port does not take now falls back to memory (R426). -/
def State.presentWrites (s : State) (k : Carrier) (side : Side) (lo : Nat) (data : List Byte) : State :=
  let n := data.length
  let bs := sideBeats side n lo
  let beat (b : Nat × Nat × Nat) : Beat :=
    { addr := beatOf (localOf b.2.2), len := b.2.1, side := 0, offset := b.1, first := b.2.2, attempts := 0,
      data := landing (Config.overlap s.free b.1)
        ((List.range b.2.1).map fun i => (localOf (side.addr (b.1 + i)), data.getD (b.1 - lo + i) 0)) }
  (s.places true bs).foldl (fun t p => match p with
    | .port q =>
      let mine := (bs.filter fun b => s.place true b.2.2 = p).map beat
      (chunks 32 mine.length).foldl (fun u c => u.present q true
        { owner := k.owner, requester := k.requester, cls := k.cls, beats := (mine.drop c.1).take c.2, presented := none,
          locked := k.locked, block := none, parked := false }) t
    | .node d =>
      ((sideRuns side n lo).filter fun r => s.place true r.2.2 = p).foldl (fun u r =>
        (writeFrames d k.cls (localOf r.2.2) ((data.drop (r.1 - lo)).take r.2.1)).foldl (fun v x =>
          v.request k.owner x.2.2 (r.1 + x.1) x.2.1 0 (addrAdd r.2.2 (x.1 : Nat))) u) t
    | .stash q => (s.placeRuns p side n lo).foldl (fun u r =>
        u.giveTiles q { owner := k.owner, requester := k.requester, cls := k.cls, beats := [], presented := none, locked := false,
                        block := none, parked := false } r.2.2 r.1 ((data.drop (r.1 - lo)).take r.2.1)) t
    | .nowhere => t) (s.countFallbacks ((bs.filter fun b => !s.isRemote b.2.2).map fun b => localOf b.2.2))

/-! ## Issue of a segment -/

/-- A fault found before an access of a side is issued, with its offset: outside the windows (R397), in no range
(R419), in a domain that is down (R264), or on a node without a route (R327). -/
inductive Obstacle where
  | fault (f : FaultRec)
  | wait (w : WaitOn)
  deriving DecidableEq, Repr

/-- Check the bytes [lo, lo + n) of a side before it is issued; `scale` turns its offsets into the op's. -/
def State.obstacle (s : State) (set : Nat) (write : Bool) (side : Side) (scale lo n : Nat) : Option Obstacle :=
  let right := if write then rightWrite else rightRead
  match s.deniedAt set right side lo n with
  | some (o, d) => some (.fault { offset := o / scale, status := .protection, detail := d, cause := 5, address := d })
  | none =>
    (sideBeats side n lo).findSome? fun b =>
      match s.place write b.2.2 with
      | .nowhere => some (.fault { offset := b.1 / scale, status := .busFault, detail := b.2.2,
                                   cause := if write then 2 else 1, address := b.2.2 })
      | .port p => if s.portDown p then some (.wait (.domain p b.2.2 (b.1 / scale))) else none
      | .stash _ => none
      | .node d => if s.routed d then none else some (.wait (.route d (b.1 / scale)))
/-- What stands in the way of a segment's accesses, lowest stream offset first. -/
def State.segObstacle (s : State) (set : Nat) (op : Op) (lo hi : Nat) : Option Obstacle :=
  let reads := op.reads.filterMap fun r => s.obstacle set false r.2 1 lo (hi - lo)
  let dst := match op.dest with
    | some (d, w) => (s.obstacle set true d w (lo * w) ((hi - lo) * w)).toList
    | none => []
  let bits := match op.bitmapAddr, op.rowLen with
    | some a, some n =>
      let r := bitmapRange n lo hi
      (s.obstacle set false (lineSide a (r.1 + r.2)) 1 r.1 r.2).toList.map fun o => match o with
        | .fault f => Obstacle.fault { f with offset := lo }
        | .wait w => .wait w
    | _, _ => []
  let all := reads ++ dst ++ bits
  let faults := all.filterMap fun o => match o with
    | .fault f => some f
    | .wait _ => none
  match faults with
  | f :: r => some (.fault (r.foldl (fun m g => if g.offset < m.offset then g else m) f))
  | [] => all.head?
/-- The wake hints of a burst's write side, as far as it is known when SCHED issues the burst (R363). -/
def State.wakeFor (s : State) (op : Op) (lo hi : Nat) : State :=
  match op.dest with
  | some (d, w) => (s.places true (sideBeats d ((hi - lo) * w) (lo * w))).foldl (fun t p => match p with
      | .stash n => t.wakeStash n
      | _ => t) s
  | none => s
/-- Present the read side of a segment of an op (R131, R218). The selection bitmap is read by beats of its own within the same burst, a second
read side (DESIGN CHOICE: R196 and R218 do not say how it is read, assumption log 94). -/
def State.issueReads (s : State) (k : Carrier) (op : Op) (lo hi : Nat) : State :=
  let s1 := op.reads.foldl (fun t r => t.presentReads k r.1 r.2 lo (hi - lo)) s
  match op.bitmapAddr, op.rowLen with
  | some a, some n => let r := bitmapRange n lo hi; s1.presentReads k 2 (lineSide a (r.1 + r.2)) r.1 r.2
  | _, _ => s1
/-- The beats of the larger side of a segment, b of R222, as far as they are known when it is issued. -/
def segBeats (op : Op) (lo hi : Nat) : Nat :=
  let bits := match op.bitmapAddr, op.rowLen with
    | some a, some n => (bitmapBeats a n lo hi).length
    | _, _ => 0
  let r := op.reads.foldl (fun m x => max m (sideBeats x.2 (hi - lo) lo).length) 0 + bits
  match op.dest with
  | some (d, w) => max r (sideBeats d ((hi - lo) * w) (lo * w)).length
  | none => r
/-- An op's result block, written at its end (R138, R145, R205, R213). -/
def Op.result : Op → Option Nat
  | .proof _ _ _ r => some r
  | .sift _ _ _ _ p => some p.result
  | .part _ _ _ r => some r
  | .tally _ _ _ r => some r
  | _ => none

/-! ## Lanes (R219, R220, R233) -/

/-- A segment that its lane holds: reads on their way or not all its writes answered. -/
def Segment.onLane (g : Segment) : Bool := g.state = .reading || g.state = .read || g.state = .sent
/-- The runs of data ops in progress, by channel. -/
def State.runs (s : State) : List (Nat × OpRun) :=
  (s.ctxs.filterMap fun e => match e.2.items with
    | it :: _ => it.run.map fun r => (e.1, r)
    | [] => none) ++ s.sched.slots.filterMap fun e => e.2.run.map fun r => (legacyBase + e.1, r)
/-- The counter updates in progress, each under a lock of its lane (R233). -/
def State.counterLanes (s : State) : List Nat :=
  s.ctxs.filterMap fun e => match e.2.items with
    | it :: _ => match it.counterOp with
      | some k => if k.value = 0 ∨ !k.issued then none else some k.lane
      | none => none
    | [] => none
/-- The lane runs: its island has a clock and is neither in reset nor gated (R347). -/
def State.laneRuns (s : State) (l : Nat) : Bool := !(s.island (moverIsland (l / 2))).absent
/-- The result blocks that a lane writes (R138, R205): each is a burst of the lane until its writes are answered. -/
def State.laneResults (s : State) (l : Nat) : List Owner :=
  ((s.ports.flatMap fun e => (e.2.wr.queue.filter fun r => r.requester = l).map (·.owner) ++
      (e.2.wr.out.filter fun a => decide (a.requester = l) && !a.discard).map (·.owner)).filter fun o => match o with
    | .result _ _ => true
    | _ => false).eraseDups
/-- The bursts a lane holds. -/
def State.laneLoad (s : State) (l : Nat) : Nat :=
  s.runs.foldl (fun n r => n + (r.2.segs.filter fun g => g.onLane && decide (g.lane = l)).length) 0 +
    (s.counterLanes.filter (· = l)).length + (s.laneResults l).length
/-- The lane holds a quoin lock. -/
def State.laneLocked (s : State) (l : Nat) : Bool :=
  (s.runs.any fun r => r.2.op.locked && r.2.segs.any fun g => g.onLane && decide (g.lane = l)) || s.counterLanes.contains l
/-- A mover island takes new bursts: it runs, and neither a RETIRE nor a power-down request holds it (R353, R453). -/
def State.moverOpen (s : State) (m : Nat) : Bool :=
  let i := s.island (moverIsland m)
  !i.unreachable && !i.retired && !i.heldOut && !i.pdreq
/-- The active lane with the fewest bursts held, below four, lowest number first, not one of those taken; for a locked
burst, one without a lock (R219, R220). -/
def State.pickLane (s : State) (locked : Bool) (taken : List Nat) : Option Nat :=
  let ok := (List.range 26).filter fun l =>
    decide (s.lane l = 0) && s.moverOpen (l / 2) && decide (s.laneLoad l < 4) && !(locked && s.laneLocked l) && !taken.contains l
  ok.foldl (fun best l => match best with
    | none => some l
    | some m => if s.laneLoad l < s.laneLoad m then some l else best) none
/-- The lane may take another burst now (R219, R220). -/
def State.laneFree (s : State) (l : Nat) : Bool := s.lane l = 0 && s.moverOpen (l / 2) && decide (s.laneLoad l < 4)
/-- The segments in flight: issued to a lane and not complete, or back in SCHED's wait table (R131, R183). One that has been read and
kept for its element is not (R150, assumption log 75). -/
def OpRun.inFlight (r : OpRun) : Nat := (r.segs.filter fun g => g.onLane || g.state = .refused).length
/-- The lane goes on with a segment that has been read: it runs, and for an element that was kept off it, it has room for it again
(R131, R150, R219). -/
def State.laneTakes (s : State) (r : OpRun) (g : Segment) : Bool :=
  s.laneRuns g.lane &&
    (g.state ≠ .kept || (s.laneFree g.lane && decide (r.inFlight < 16) && r.segs.all fun x => !x.onLane || decide (x.lane ≠ g.lane)))
/-- Change the run of a channel. -/
def State.modRun (s : State) (c : Nat) (f : OpRun → OpRun) : State :=
  if legacyBase ≤ c then
    let k := s.slot (c - legacyBase)
    s.setSlot (c - legacyBase) { k with run := k.run.map f }
  else s.modItem c fun it => { it with run := it.run.map f }
def State.run (s : State) (c : Nat) : Option OpRun :=
  if legacyBase ≤ c then (s.slot (c - legacyBase)).run
  else match s.item c with
    | some it => it.run
    | none => none
/-- The lanes that hold a segment of the run: each segment in flight has its own (R131). -/
def OpRun.lanesHeld (r : OpRun) : List Nat := (r.segs.filter (·.onLane)).map (·.lane)
def OpRun.modSeg (r : OpRun) (lo : Nat) (f : Segment → Segment) : OpRun :=
  { r with segs := r.segs.map fun g => if g.lo = lo then f g else g }
/-- The galley is on this device (R117, R200, R466). -/
def State.galleyLocal (s : State) (ref : Nat) : Bool := !bitOf ref 31 || s.fab.nodeId = some (bitsOf ref 17 12)
def galleyNo (ref : Nat) : Nat := bitsOf ref 0 17
def galleyNode (ref : Nat) : Nat := bitsOf ref 17 12
/-- Two references name one galley. -/
def State.sameGalley (s : State) (a b : Nat) : Bool :=
  galleyNo a = galleyNo b && ((s.galleyLocal a && s.galleyLocal b) ||
    (!s.galleyLocal a && !s.galleyLocal b && decide (galleyNode a = galleyNode b)))
/-- The item width that cuts a PUSH (R115, R329): that of an item galley, of which LENGTH is a whole multiple, else 0 (for a galley
of another node, assumption log 21). -/
def State.pushWidth (s : State) (op : Op) : Nat :=
  match op with
  | .push g _ n _ _ packet =>
    let w := if s.galleyLocal g then (s.galley (galleyNo g)).width else Config.remoteWidth (galleyNode g) (galleyNo g)
    if packet ∨ n % w ≠ 0 then 0 else w
  | _ => 0
/-- The lowest offset at which a PROOF has found a difference (R138). -/
def OpRun.firstDiff (r : OpRun) : Option Nat :=
  r.segs.foldl (fun m g => match m, g.first with
    | none, x => x
    | some a, some b => some (min a b)
    | some a, none => some a) r.firstMismatch
/-- Where a PROOF with ALL = 0 has stopped comparing: it issues no new segment, and needs none from there on (R138). -/
def OpRun.stopped (r : OpRun) : Option Nat :=
  match r.op with
  | .proof false _ _ _ => r.firstDiff
  | _ => none
/-- A segment that is issued again: cut, taken back, or what one write side left of a SIFT segment (R131), below the point at which a
PROOF has stopped (R138). -/
def OpRun.mayReissue (r : OpRun) (g : Segment) : Bool :=
  g.state = .ready && (match r.stopped with
    | some d => decide (g.lo < d)
    | none => true)
/-- The segment a run issues next: one to be issued again, or the next of the stream, while fewer than 16 are in flight (R131). -/
def State.nextSegment (s : State) (r : OpRun) : Option Segment :=
  if r.phase ≠ .data ∨ 16 ≤ r.inFlight then none
  else match r.segs.find? r.mayReissue with
    | some g => some g
    | none =>
      if r.cut < r.total ∧ r.stopped.isNone then
        some { lo := r.cut, hi := s.cutEnd r.op (s.pushWidth r.op) r.total r.cut }
      else none

end Sys2Proof.Machine
end

