-- ==== Sys2Proof/Machine/Carry.lean ====
section
/-! DEFINITION. What a lane does with a segment that has been read (R134 to R150, R199 to R214), the op's end, and the
progress of R132. -/
namespace Sys2Proof.Machine

/-! ## The bytes a run has read -/

def bufKey (side off : Nat) : Nat := off * 4 + side
def OpRun.byteAt (r : OpRun) (side off : Nat) : Option Byte :=
  (r.buf.find? fun e => e.1 = bufKey side off).map (·.2)
def OpRun.has (r : OpRun) (side off : Nat) : Bool := (r.byteAt side off).isSome
/-- n read bytes from an offset; a byte not read counts as 0 and is never delivered. -/
def OpRun.bytes (r : OpRun) (side off n : Nat) : List Byte := (List.range n).map fun i => (r.byteAt side (off + i)).getD 0
/-- The runs of offsets of [lo, lo + n) whose byte has been read: a read that failed has its bytes left out (R249). -/
def OpRun.present (r : OpRun) (side : Nat) : Nat → Nat → List (Nat × Nat)
  | 0, _ => []
  | n + 1, lo =>
    let rest := OpRun.present r side n (lo + 1)
    if r.has side lo then
      match rest with
      | (o, c) :: t => if o = lo + 1 then (lo, c + 1) :: t else (lo, 1) :: rest
      | [] => [(lo, 1)]
    else rest
/-- Forget the bytes of a segment. -/
def OpRun.forget (r : OpRun) (lo hi : Nat) : OpRun :=
  { r with buf := r.buf.filter fun e => e.1 < lo * 4 ∨ hi * 4 ≤ e.1 }

/-! ## The rows of a segment -/

/-- The rows of a segment [lo, hi): (row number, bytes, selected) (R133, R196). -/
def OpRun.rowsOf (r : OpRun) (n lo hi : Nat) : List (Nat × List Byte × Bool) :=
  (List.range ((hi - lo) / n)).map fun i =>
    let row := lo / n + i
    let sel := match r.op.bitmapAddr with
      | some _ => bitOf ((r.byteAt 2 (lo + (row / 8 - lo / n / 8))).getD 0).toNat (row % 8)
      | none => true
    (row, r.bytes 0 (row * n) n, sel)
/-- Every byte of [lo, lo + n) of each side has been read. -/
def OpRun.wholeRun (r : OpRun) (lo n : Nat) : Bool :=
  r.op.reads.all fun x => (List.range n).all fun i => r.has x.1 (lo + i)
/-- Every byte of a segment has been read, those of the selection bitmap among them. -/
def OpRun.whole (r : OpRun) (g : Segment) : Bool :=
  r.wholeRun g.lo (g.hi - g.lo) &&
    match r.op.bitmapAddr, r.op.rowLen with
    | some _, some n => (List.range (bitmapRange n g.lo g.hi).2).all fun i => r.has 2 (g.lo + i)
    | _, _ => true

/-- The carrier of a channel's segment. -/
def State.classOf (s : State) (c : Nat) : Nat :=
  if legacyBase ≤ c then bitsOf (s.slot (c - legacyBase)).workCtrl 8 3 else (s.ctx c).f.cls
def State.setOf (s : State) (c : Nat) : Nat :=
  if legacyBase ≤ c then bitsOf (s.slot (c - legacyBase)).workCtrl 16 8 else (s.ctx c).f.windowSet
def State.carrier (s : State) (c : Nat) (r : OpRun) (g : Segment) (write : Bool) : Carrier :=
  { owner := if write then .opWrite c r.serial g.lo else .opRead c r.serial g.lo, requester := laneReq g.lane,
    cls := s.classOf c, locked := r.op.locked }
/-- A fault of the op of a channel or of a legacy slot. -/
def State.failOp (s : State) (c : Nat) (f : FaultRec) : State :=
  if legacyBase ≤ c then
    let k := s.slot (c - legacyBase)
    s.setSlot (c - legacyBase) { k with faults := k.faults ++ [f] }
  else s.fail c f
/-- The channel, or the legacy slot, waits (R264, R327, R440). -/
def State.stallOp (s : State) (c : Nat) (w : WaitOn) : State :=
  if legacyBase ≤ c then
    let k := s.slot (c - legacyBase)
    s.setSlot (c - legacyBase) { k with stalled := some w }
  else s.stall c w
def State.meet (s : State) (c : Nat) (o : Obstacle) : State :=
  match o with
  | .fault f => s.failOp c f
  | .wait w => s.stallOp c w
/-- The faults found of the op in progress. -/
def State.faultsOf (s : State) (c : Nat) : List FaultRec :=
  if legacyBase ≤ c then (s.slot (c - legacyBase)).faults else (s.ctx c).faults
/-- A fault of the op, or a halt on its way, was found. -/
def State.failing (s : State) (c : Nat) : Bool :=
  if legacyBase ≤ c then !(s.slot (c - legacyBase)).faults.isEmpty || decide ((s.slot (c - legacyBase)).state = 3)
  else (s.ctx c).halting || (s.ctx c).state = .aborting

/-! ## Units of PUSH and PART (R116, R167, R201, R329) -/

/-- The context is adopted (R296). -/
def State.adopted (s : State) (c : Nat) : Bool := decide ((s.ctx c).f.adoptNode < 4096)
/-- The producer stream of a context (R167, R296). -/
def State.stream (s : State) (c : Nat) : Stream :=
  { node := if s.adopted c then (s.ctx c).f.adoptNode else s.nodeNum, ctx := c }
/-- ATTEMPT of the item in progress (R167); an adopted context has the epoch bits of ADOPT_EPOCH on any device (R296). A unit
that is still open when an epoch opens with CAUSE 3 has a higher ATTEMPT from its next piece on, which discards the unit as POOL holds it
(DESIGN CHOICE: R167 does not settle it, assumption log 89). -/
def State.attempt (s : State) (c : Nat) : BitVec 32 :=
  if s.journaled || s.adopted c then
    let e := if s.adopted c then (s.ctx c).f.adoptEpoch else s.jrn.epoch
    BitVec.ofNat 32 (e % 2 ^ 24 * 256 + (match s.item c with | some it => min 255 it.reexec | none => 0))
  else 0
def State.seqOf (s : State) (c : Nat) : Nat := match s.item c with
  | some it => it.seq
  | none => 0
/-- The galley reference of a destination of the op. -/
def Op.galleyRef : Op → Nat → Nat
  | .part _ _ d _, i => d.dtable.getD i 0
  | .push g _ _ _ _ _, _ => g
  | _, _ => 0
/-- The 32 B piece header (R329). -/
def Piece.header (p : Piece) : List Byte :=
  leBytes 4 (p.galley % 2 ^ 17 + boolBit p.openFlag 17 + boolBit p.close 18) ++
    leBytes 4 (p.stream.ctx % 2 ^ 18 + p.stream.node % 4096 * 2 ^ 18) ++ leBytes 8 p.seq ++ leBytes 4 p.ord ++
    leBytes 4 p.attempt.toNat ++ leBytes 4 p.pieceNo ++ leBytes 4 0
/-- The pieces of bytes of a unit for a destination: one locally; for another node, frames of at most 992 bytes cut at
units of w bytes (R329). -/
def pieceChunks (remote : Bool) (w n : Nat) : List (Nat × Nat) :=
  if remote then (let k := if w = 0 then 992 else max w (992 / w * w); chunks k n) else [(0, n)]
/-- Send the pieces of a segment's bytes to destination d from number `no` on, but for those stored already (R204). -/
def State.sendPieces (s : State) (c : Nat) (r : OpRun) (g : Segment) (base : Piece) (ref w no : Nat) (data : List Byte) : State :=
  let remote := !s.galleyLocal ref
  let cs := pieceChunks remote w data.length
  ((cs.zip (List.range cs.length)).filter fun x => !g.stored.contains (base.dest, no + x.2)).foldl (fun t x =>
    let p : Piece := { base with data := (data.drop x.1.1).take x.1.2, pieceNo := no + x.2, seg := g.lo, serial := r.serial }
    if remote then
      t.request (.piece c r.serial g.lo p.dest) (reqFrame 0x14 (galleyNode ref) (s.classOf c) 0 (p.header ++ p.data)) g.lo 0 0 0
    else { t with pool := { t.pool with pieces := t.pool.pieces ++ [p] } }) s
/-- The frames numbered from `no` may go out: no frame 64 or more below the last is unanswered (R330). -/
def State.pieceRoom (s : State) (c serial dest no n : Nat) : Bool :=
  !(s.fab.remotes.any fun r => (match r.owner with
    | .piece c' k _ d => decide (c' = c) && decide (k = serial) && decide (d = dest)
    | _ => false) && decide (fieldAt r.frame.payload 0x18 4 + 64 < no + n))
/-- The unit's identity on a destination. The pieces of an adopted context are marked on any device, so that POOL knows the attempts of a
lost one (R296, beside R171; DEDUCED, assumption log 89). -/
def State.unitPiece (s : State) (c : Nat) (r : OpRun) (d : Nat) : Piece :=
  { galley := galleyNo (r.op.galleyRef d), stream := s.stream c, seq := s.seqOf c, ord := r.ordBase + d,
    attempt := s.attempt c, marked := s.journaled || s.adopted c, dest := d, serial := r.serial }
/-- Send the seal of the unit on destination d, with the count of its pieces (R205, R330). -/
def State.sendSeal (s : State) (c : Nat) (r : OpRun) (d count : Nat) : State :=
  let p := { s.unitPiece c r d with pieceNo := count }
  let ref := r.op.galleyRef d
  if s.galleyLocal ref then { s with pool := { s.pool with seals := s.pool.seals ++ [p] } }
  else s.request (.seal c r.serial d) (reqFrame 0x16 (galleyNode ref) (s.classOf c) 0 p.header) 0 0 0 0

/-! ## Carrying a segment -/

/-- Write the bytes that destination offsets [lo, ...) take. -/
def State.carryWrites (s : State) (c : Nat) (r : OpRun) (g : Segment) (d : Side) (lo : Nat) (data : List Byte) : State :=
  (s.presentWrites (s.carrier c r g true) d lo data).nextFree
/-- MOVE, GATHER and SCATTER write the bytes read; DECODE writes W table bytes for each code (R134, R146). The write side
goes on where its last grant ended; while a failed read is retried it ends before that beat (R259). -/
def State.carryMapped (s : State) (c : Nat) (r : OpRun) (g : Segment) (d : Side) (w : Nat) (f : Byte → List Byte) : State :=
  let lo := max g.lo g.wrote
  let hi := if g.state = .reading then g.stop.getD lo else g.hi
  let s1 := (r.present 0 (hi - lo) lo).foldl (fun t x =>
    t.carryWrites c r g d (x.1 * w) ((r.bytes 0 x.1 x.2).flatMap f)) s
  if g.state = .reading then s1.modRun c fun q => q.modSeg g.lo fun x => { x with wrote := hi, stop := none }
  else s1.modRun c fun q => (q.modSeg g.lo fun x => { x with state := .sent, wrote := hi, stop := none }).forget g.lo g.hi
/-- FILL writes pattern byte (k mod FILL_LEN) (R136). -/
def fillBytes (bytes : List Byte) (lo n : Nat) : List Byte :=
  (List.range n).map fun i => bytes.getD ((lo + i) % bytes.length) 0
/-- PROOF compares the bytes both sides have (R138). -/
def OpRun.diffs (r : OpRun) (g : Segment) : List Nat :=
  (List.range (g.hi - g.lo)).filterMap fun i =>
    match r.byteAt 0 (g.lo + i), r.byteAt 1 (g.lo + i) with
    | some a, some b => if a = b then none else some (g.lo + i)
    | _, _ => none
/-- The bitmap bytes that row results complete: a partial last byte only at the stream's end (R144). -/
def bitBytes (rows : List Bool) : List Byte :=
  (List.range ((rows.length + 7) / 8)).map fun j =>
    BitVec.ofNat 8 ((List.range 8).foldl (fun v i => v + boolBit (rows.getD (8 * j + i) false) i) 0)
/-- What SIFT writes for the rows that follow those taken so far (R144): the first destination offset and the bytes;
`last` says that the stream ends with them. -/
def OpRun.siftOut (r : OpRun) (n : Nat) (bitmap last : Bool) (rows : List (List Byte × Bool)) : Nat × List Byte :=
  let first := r.rowsAt + r.rows.length
  if bitmap then
    let start := first / 8
    let stop := if last then (first + rows.length + 7) / 8 else (first + rows.length) / 8
    (start, (bitBytes ((r.rows ++ rows.map (·.2)).drop (start * 8 - r.rowsAt))).take (stop - start))
  else ((r.passed + (r.rows.filter id).length) * n, (rows.filter (·.2)).flatMap (·.1))
/-- The bytes make one side of a burst: at most 32 beats at one place (R131, R218). -/
def State.oneSide (s : State) (d : Side) (lo n : Nat) : Bool :=
  let bs := sideBeats d n lo
  decide (bs.length ≤ 32) && decide ((s.places true bs).length ≤ 1)
/-- A segment is cut in two at a stream offset; what comes after is issued as a burst of its own (R131, R218). -/
def OpRun.splitSeg (r : OpRun) (lo mid : Nat) : OpRun :=
  { r with segs := r.segs.flatMap fun g => if g.lo = lo ∧ mid < g.hi then [{ g with hi := mid }, { lo := mid, hi := g.hi }] else [g] }
/-- Where the rows of a SIFT segment that may be written now end: before a failed read that is retried (R259), before a row that a
fault lies in, and before one that is not all here (R249). -/
def OpRun.siftEnd (r : OpRun) (faults : List FaultRec) (g : Segment) (n : Nat) : Nat :=
  let lo := max g.lo g.wrote
  let top := faults.foldl (fun m f => min m f.offset) (if g.state = .reading then min g.hi (g.stop.getD lo) else g.hi)
  lo + n * ((List.range ((top - lo) / n)).takeWhile fun i => r.wholeRun (lo + i * n) n).length
/-- The run with the results of the rows before a stream offset alone. -/
def OpRun.before (r : OpRun) (n lo : Nat) : OpRun := { r with rows := r.rows.take (lo / n - r.rowsAt) }
/-- NEXT rises by the beats in which a side found later exceeds those charged at issue (R222, assumption log 76). -/
def State.chargeMore (s : State) (c beats charged : Nat) : State :=
  s.modCtx c fun x => if x.f.share = 0 then x else { x with next256 := x.next256 + (beats - charged) * 65536 / x.f.share }
/-- SIFT takes a segment's rows in source order (R144): as many of them as its write side carries; the others follow in a burst of
their own (R131, assumption log 76). While a failed read is retried the write side ends before it, and goes on when it has come
(R259). A row whose passing bytes lie at two ports, or need more than 32 beats, is written by several requests of its one burst
(DESIGN CHOICE: R467 speaks of the source, assumption log 98). -/
def State.carrySift (s : State) (c : Nat) (r : OpRun) (g : Segment) (n : Nat) (bitmap : Bool) (d : Side) (p : Predicate) : State :=
  let lo := max g.lo g.wrote
  let top := r.siftEnd (s.faultsOf c) g n
  let rows (a b : Nat) : List (List Byte × Bool) := (r.rowsOf n a b).map fun x => (x.2.1, p.passes x.2.1)
  let out (a b : Nat) : Nat × List Byte := (r.before n a).siftOut n bitmap (decide (b = r.total)) (rows a b)
  let fits (b : Nat) : Bool := let w := out g.lo b; s.oneSide d w.1 w.2.length
  let hi := match (List.range ((top - lo) / n)).reverse.find? fun i => fits (lo + (i + 1) * n) with
    | some i => lo + (i + 1) * n
    | none => if lo = g.lo then lo + n else lo
  let w := out lo hi
  match s.obstacle (s.setOf c) true d 1 w.1 w.2.length with
  | some (.fault f) => s.failOp c { f with offset := lo }
  | some (.wait x) => s.stallOp c x
  | none =>
    let res := (rows lo hi).map (·.2)
    let i := lo / n - r.rowsAt
    let s1 := s.modRun c fun q =>
      let q1 := { q with rows := r.rows.take i ++ res ++ r.rows.drop (i + res.length) }
      if g.state = .reading ∨ (hi = top ∧ top < g.hi) then q1.modSeg g.lo fun x => { x with wrote := hi, stop := none }
      else ((q1.splitSeg g.lo hi).modSeg g.lo fun x => { x with state := .sent, wrote := hi, stop := none }).forget g.lo g.hi
    let beats (b : Nat) : Nat := let w := out g.lo b; (sideBeats d w.2.length w.1).length
    (s1.chargeMore c (beats hi) (max (segBeats r.op g.lo g.hi) (beats lo))).carryWrites c r g d w.1 w.2
/-- TALLY adds the selected rows of a segment to its accumulators (R212). -/
def OpRun.tallied (r : OpRun) (t : TallyDesc) (rows : List (Nat × List Byte × Bool)) : OpRun :=
  rows.foldl (fun q x =>
    if x.2.2 then
      let k := t.group x.2.1
      { q with acc := Tab.insert k (t.add (Tab.get (fun _ => {}) q.acc k) x.2.1) q.acc, selected := q.selected + 1 }
    else q) r
/-- The item has pushed to a galley of another node, which is to have the notice of its release (R174, R331). -/
def State.noteRef (s : State) (c ref : Nat) : State :=
  if s.galleyLocal ref then s
  else s.modItem c fun it => { it with remoteRefs := if it.remoteRefs.contains ref then it.remoteRefs else it.remoteRefs ++ [ref] }
/-- PART sends one piece to each destination that has selected rows and is not delivered (R203, R204). -/
def State.carryPart (s : State) (c : Nat) (r : OpRun) (g : Segment) (n : Nat) (d : PartDesc) : State :=
  let rows := (r.rowsOf n g.lo g.hi).filter (·.2.2)
  let dests := ((rows.map fun x => d.dest x.2.1).eraseDups).filter fun i => !g.delivered.contains i
  let data (i : Nat) : List Byte := (rows.filter fun x => d.dest x.2.1 = i).flatMap fun x => x.2.1
  let count (i : Nat) : Nat := (pieceChunks (!s.galleyLocal (d.dtable.getD i 0)) n (data i).length).length
  let known (i : Nat) : Option (Nat × Nat) := g.nums.find? fun e => e.1 = i
  let no (i : Nat) : Nat := match known i with
    | some e => e.2
    | none => Tab.get (fun _ => 0) r.pieceNo i
  let s1 := s.modRun c fun q => (q.modSeg g.lo fun x => { x with
    state := if dests.isEmpty then .complete else .sent, refusals := [], wait := none })
  if dests.any fun i => !s.pieceRoom c r.serial i (no i) (count i) then s
  else dests.foldl (fun t i =>
    let ref := d.dtable.getD i 0
    let t1 := t.modRun c fun q => (q.modSeg g.lo fun x => { x with nums := Tab.insert i (no i) x.nums }) |> fun q =>
      { q with pieceNo := if (known i).isNone then Tab.insert i (no i + count i) q.pieceNo else q.pieceNo,
               units := if q.units.contains i then q.units else q.units ++ [i] }
    (t1.noteRef c ref).sendPieces c r g { s.unitPiece c r i with rowLen := n } ref n (no i) (data i)) s1
/-- The pieces that a packet had before this PUSH; an item galley's unit begins with its PUSH (R116). -/
def State.pushStart (s : State) (c : Nat) (packet : Bool) : Nat :=
  match s.item c with
  | some it => if packet then it.packetPieces else 0
  | none => 0
/-- The count of pieces that the seal of destination d names (R329). -/
def State.sealCount (s : State) (c : Nat) (r : OpRun) (d : Nat) : Nat :=
  match r.op with
  | .push _ _ _ _ _ packet => s.pushStart c packet + Tab.get (fun _ => 0) r.pieceNo 0
  | _ => Tab.get (fun _ => 0) r.pieceNo d
/-- The seal of destination d goes out: no lower destination on the same galley waits for its answer (R205, R206). -/
def State.sealReady (s : State) (r : OpRun) (d : Nat) : Bool :=
  r.seals.all fun e => decide (d ≤ e) || !s.sameGalley (r.op.galleyRef e) (r.op.galleyRef d)
/-- Send the seals of some destinations, as far as their turn has come. -/
def State.sendSeals (s : State) (c : Nat) (r : OpRun) (ds : List Nat) : State :=
  (ds.filter (s.sealReady r)).foldl (fun t d => t.sendSeal c r d (s.sealCount c r d)) s
/-- PUSH sends the bytes of a segment as a piece of its unit (R115, R116). -/
def State.carryPush (s : State) (c : Nat) (r : OpRun) (g : Segment) (ref : Nat) (opn close packet : Bool) : State :=
  let w := s.pushWidth r.op
  let data := r.bytes 0 g.lo (g.hi - g.lo)
  let remote := !s.galleyLocal ref
  let start := s.pushStart c packet
  let fresh := g.nums.isEmpty
  let no := match g.nums.head? with
    | some e => e.2
    | none => start + Tab.get (fun _ => 0) r.pieceNo 0
  let s1 := s.modRun c fun q => (q.modSeg g.lo fun x => { x with state := .sent, refusals := [], wait := none, nums := [(0, no)] }) |> fun q =>
    { q with
      pieceNo := if fresh then Tab.insert 0 (no - start + (pieceChunks remote w data.length).length) q.pieceNo else q.pieceNo
      units := [0] }
  if s.pieceRoom c r.serial 0 no (pieceChunks remote w data.length).length then
    s1.sendPieces c r g { s.unitPiece c r 0 with openFlag := opn, close := close } ref w no data
  else s

/-- The lane carries a segment that has been read. -/
def State.carry (s : State) (c : Nat) (r : OpRun) (g : Segment) : State :=
  match r.op with
  | .move _ d => s.carryMapped c r g d 1 fun b => [b]
  | .gather _ d => s.carryMapped c r g d 1 fun b => [b]
  | .scatter _ d => s.carryMapped c r g d 1 fun b => [b]
  | .decode w _ d table => s.carryMapped c r g d w fun b => (table.drop (b.toNat * w)).take w
  | .fill bytes d =>
    (s.carryWrites c r g d g.lo (fillBytes bytes g.lo (g.hi - g.lo))).modRun c fun q =>
      (q.modSeg g.lo fun x => { x with state := .sent }).forget g.lo g.hi
  | .proof _ _ _ _ =>
    let l := r.diffs g
    let hole := (List.range (g.hi - g.lo)).find? fun i => !(r.has 0 (g.lo + i) && r.has 1 (g.lo + i))
    let seen := match hole with
      | none => l
      | some i => l.filter fun k => k < g.lo + i
    s.modRun c fun q => (q.modSeg g.lo fun x => { x with
      state := if hole.isNone then .complete else .ready, got := seen.length, first := seen.head? }).forget g.lo g.hi
  | .sift n bitmap _ d p => s.carrySift c r g n bitmap d p
  | .tally n _ t _ =>
    s.modRun c fun q => ((q.tallied t (q.rowsOf n g.lo g.hi)).modSeg g.lo fun x => { x with state := .complete }).forget g.lo g.hi
  | .part n _ d _ => s.carryPart c r g n d
  | .push ref _ _ o cl p => s.carryPush c r g ref o cl p

/-- While a failed read is retried, the beats before it are all here and not yet written (R259). -/
def OpRun.partReady (r : OpRun) (g : Segment) : Bool :=
  let lo := max g.lo g.wrote
  match g.stop with
  | some k => g.state = .reading && decide (lo < k) && r.wholeRun lo (k - lo)
  | none => false
/-- Every earlier segment of the stream has been carried. -/
def OpRun.inTurn (r : OpRun) (g : Segment) : Bool :=
  r.segs.all fun x => decide (g.lo ≤ x.lo) || x.state = .sent || x.state = .complete
/-- A segment that has been read may be carried: SIFT and PUSH in stream order, GATHER and SCATTER only when every
earlier element is complete and the element is wholly read (R144, R150); PART, TALLY and PUSH only whole. What a fault found keeps
from being carried: a SIFT's rows at or after it, and a GATHER's or SCATTER's element that faults with all later ones (R132, R150,
R249). -/
def OpRun.mayCarry (r : OpRun) (faults : List FaultRec) (g : Segment) : Bool :=
  match r.op with
  | .sift n _ _ _ _ =>
    (g.state = .read || (g.state = .reading && g.stop.isSome)) && r.inTurn g && decide (max g.lo g.wrote < r.siftEnd faults g n)
  | .push .. => g.state = .read && r.whole g && r.inTurn g
  | .part .. => g.state = .read && r.whole g
  | .tally .. => g.state = .read && r.whole g
  | .gather .. | .scatter .. =>
    let e := r.op.element g.lo
    let last := match r.op.list with
      | some l => elemStart l (e + 1)
      | none => r.total
    g.state = .kept && decide (last ≤ r.cut) && (faults.all fun f => decide (e < r.op.element f.offset)) && r.segs.all fun x =>
      let ex := r.op.element x.lo
      (decide (e ≤ ex) || x.state = .complete) && (decide (ex ≠ e) || (r.whole x || x.state = .sent || x.state = .complete))
  | .move .. | .decode .. => g.state = .read || r.partReady g
  | _ => g.state = .read
/-- An element's segment whose lane has left the active set is read again by another (R131, R150). -/
def State.keptLost (s : State) (g : Segment) : Bool := g.state = .kept && !(s.lane g.lane = 0 && s.moverOpen (g.lane / 2))
/-- Segments whose writes are all answered without a fault are complete; the complete prefix is folded into `done`
(R132). -/
def State.settleSegs (s : State) (c : Nat) (r0 : OpRun) : OpRun :=
  let r := (r0.segs.filter s.keptLost).foldl (fun (q : OpRun) g => q.forget g.lo g.hi) r0
  { r with segs := r.segs.map fun g =>
      if s.keptLost g then { g with state := .ready }
      else if g.state = .sent ∧ !r.op.locked ∧ !(s.owners.any fun o => o = .opWrite c r.serial g.lo) ∧
          !((s.faultsOf c).any fun f => decide (g.lo ≤ f.offset) && decide (f.offset < g.hi)) then { g with state := .complete }
      else g }
def OpRun.foldDone (r : OpRun) : Nat → OpRun
  | 0 => r
  | n + 1 =>
    match r.segs with
    | g :: rest =>
      if g.state = .complete ∧ g.lo = r.done then
        OpRun.foldDone { r with segs := rest, done := g.hi, mismatches := r.mismatches + g.got,
                                firstMismatch := if r.firstMismatch.isSome then r.firstMismatch else g.first } n
      else r
    | [] => r
def State.settle (s : State) (c : Nat) : State :=
  s.modRun c fun r => let q := s.settleSegs c r; q.foldDone q.segs.length
/-- Carry every segment that may be carried; at most 16 are in flight. -/
def State.carryAll (s : State) (c : Nat) : Nat → State
  | 0 => s
  | n + 1 =>
    let s1 := s.settle c
    match s1.run c with
    | none => s1
    | some r =>
      match r.segs.find? fun g => r.mayCarry (s1.faultsOf c) g && s1.laneTakes r g with
      | some g => State.carryAll (s1.carry c r g) c n
      | none => s1

/-! ## Progress (R132, R150, R215) -/

/-- P of a run with the faults found: no byte below it is incomplete. A segment that a fault lies in has been carried up to the
fault. -/
def OpRun.progress (r : OpRun) (faults : List FaultRec) : Nat :=
  let low := faults.foldl (fun m f => min m f.offset) r.total
  let carried (g : Segment) : Bool := (g.state = .sent || g.state = .read) &&
    faults.any fun f => decide (g.lo ≤ f.offset) && decide (f.offset < g.hi)
  let at' := min low (match r.segs.find? fun g => g.state ≠ .complete && !carried g with
    | none => r.cut
    | some g => g.lo)
  match r.op with
  | .tally .. => 0
  | .sift n bitmap _ _ _ => if bitmap ∧ at' < r.total then at' / (8 * n) * (8 * n) else at' / n * n
  | .proof .. => min low r.done
  | .part .. => min low r.done
  | .push .. => min low r.done
  | .gather .. | .scatter .. =>
    match r.op.list with
    | some l => if r.total ≤ at' then r.total else elemStart l (r.op.element at')
    | none => at'
  | _ => at'
/-- The run as a resume finds it: cut again from P, with the counts of the bytes below P (R132, R138, R144, R207, R215).
PART and PUSH keep the segments whose pieces are partly delivered, so that no piece is sent twice (R204). -/
def OpRun.rewind (r : OpRun) (p : Nat) : OpRun :=
  match r.op with
  | .tally .. => { r with cut := 0, done := 0, segs := [], buf := [], acc := [], selected := 0, phase := .data }
  | .sift n _ _ _ _ =>
    let rowsBelow := r.rows.take (p / n - r.rowsAt)
    { r with cut := p, done := p, segs := [], buf := [], rows := [], rowsAt := p / n,
             passed := r.passed + (rowsBelow.filter id).length }
  | .part .. | .push .. =>
    { r with buf := [], segs := r.segs.map fun g => if g.state = .complete then g else { g with state := .ready } }
  | .proof .. =>
    if p < r.done then { r with cut := 0, done := 0, segs := [], buf := [], mismatches := 0, firstMismatch := none }
    else { r with cut := p, done := p, segs := [], buf := [] }
  | _ => { r with cut := p, done := p, segs := [], buf := [] }

/-! ## The op's result block and end -/

/-- Bytes PROOF counts as compared (R138). -/
def OpRun.comparedBytes (r : OpRun) : Nat :=
  match r.op, r.firstDiff with
  | .proof all _ _ _, some f => if all then r.total else f + 1
  | _, _ => r.total
def OpRun.rowsPassed (r : OpRun) : Nat := r.passed + (r.rows.filter id).length
/-- The bytes the op counts in DETAIL (R129, R195, R81). -/
def OpRun.counted (r : OpRun) : Nat :=
  match r.op with
  | .proof .. => r.comparedBytes
  | .sift n bitmap _ _ _ => if bitmap then (r.total / n + 7) / 8 else r.rowsPassed * n
  | .decode w _ _ _ => w * r.total
  | .part n _ _ _ => r.counts.foldl (fun t e => t + e.2) 0 * n
  | .tally .. => 16448
  | _ => r.total
def maxU64 : Nat := 2 ^ 64 - 1
/-- The result block's bytes. -/
def OpRun.resultBytes (r : OpRun) : List Byte :=
  match r.op with
  | .proof all _ _ _ =>
    let n := r.segs.foldl (fun t g => t + g.got) r.mismatches
    match r.firstDiff with
    | some f => leBytes 8 f ++ leBytes 8 (if all then n else 1)
    | none => leBytes 8 maxU64 ++ leBytes 8 0
  | .sift n _ _ _ _ => leBytes 8 (r.total / n) ++ leBytes 8 r.rowsPassed
  | .part n _ d _ =>
    leBytes 8 (r.total / n) ++ leBytes 8 (r.counts.foldl (fun t e => t + e.2) 0) ++
      (List.range (2 ^ d.k)).flatMap fun i => leBytes 8 (Tab.get (fun _ => 0) r.counts i)
  | .tally n _ t _ =>
    leBytes 8 (r.total / n) ++ leBytes 8 r.selected ++ leBytes 48 0 ++
      (List.range 256).flatMap fun g => t.record (Tab.get (fun _ => {}) r.acc g)
  | _ => []
/-- Every segment has been sent or is complete, or the op stops at a mismatch with nothing in flight. -/
def OpRun.dataDone (r : OpRun) : Bool :=
  (decide (r.total ≤ r.cut) || r.stopped.isSome) && r.segs.all fun g => match r.op with
    | .part .. => g.state = .complete
    | .push .. => g.state = .complete
    | .tally .. => g.state = .complete
    | .proof .. => g.state = .complete || (g.state = .ready && r.stopped.any fun d => decide (d ≤ g.lo))
    | _ => g.state = .sent || g.state = .complete
/-- The op's own work ends: what it counts, and a PROOF's mismatch (R80, R81, R139). -/
def State.concludeOp (s : State) (c : Nat) (r : OpRun) : State :=
  let s1 := (s.modRun c fun q => { q with phase := .finished }).credit c r.counted true
  let s2 := s1.modItem c fun it => { it with
    mismatch := match it.mismatch, r.op, r.firstDiff with
      | none, .proof .., some f => some (it.opIndex, it.blockNo, f)
      | m, _, _ => m }
  let s3 := match r.op with
    | .push _ _ n _ close true => s2.modItem c fun it => { it with
        packetPieces := it.packetPieces + Tab.get (fun _ => 0) r.pieceNo 0, packetBytes := it.packetBytes + n,
        openPacket := if close then none else it.openPacket }
    | _ => s2
  s3.finishOp c
/-- The op's work is done: its result block is the next burst that SCHED issues (R138, R205, R220), or the op ends. -/
def State.endData (s : State) (c : Nat) (r : OpRun) : State :=
  if r.op.result.isSome then s.modRun c fun q => { q with phase := .result } else s.concludeOp c r
/-- The end of the data phase: seals for PUSH and PART, then the result block, then the op's end (R168, R205). -/
def State.afterData (s : State) (c : Nat) (r : OpRun) : State :=
  match r.phase with
  | .data =>
    if !r.dataDone then s
    else match r.op with
      | .part _ _ d _ =>
        let ds := (List.range (2 ^ d.k)).filter fun i => r.units.contains i
        (s.modRun c fun q => { q with phase := .sealing, seals := ds }).sendSeals c { r with seals := ds } ds
      | .push _ _ _ _ close packet =>
        if !packet ∨ close then (s.modRun c fun q => { q with phase := .sealing, seals := [0] }).sendSeals c { r with seals := [0] } [0]
        else s.concludeOp c r
      | _ => s.endData c r
  | .sealing => if r.seals.isEmpty then s.endData c r else s
  | _ => s

/-- One further stage of a run in progress. -/
def State.advanceRun (s : State) (c : Nat) : State :=
  let s1 := s.carryAll c 32
  if s1.failing c then s1
  else match s1.run c with
    | some r => s1.afterData c r
    | none => s1

end Sys2Proof.Machine
end

