-- ==== Sys2Proof/Machine/DataOps.lean ====
section
/-! DEFINITION. The data ops MOVE to SCATTER (R134 to R151, R195 to R217). Each op command takes the op one stage on: an operand structure, the checks, the segments that have been read, the end. -/
namespace Sys2Proof.Machine

/-- Take one operand structure of the item's data op (R123): its address, its window, then its read; a structure of no byte
is not read, and one in the beats that SCHED has of the block is taken from them. -/
def State.takeStruct (s : State) (c : Nat) (it : Item) (d : Nat × Nat × Nat) : State :=
  if d.1 % d.2.2 ≠ 0 ∨ s.isRemote d.1 then s.haltBadOp c it
  else if d.2.1 = 0 then s.modItem c fun i => { i with structIdx := i.structIdx + 1 }
  else s.fetchBytes c d.1 d.2.1 .structs
/-- The push ordinals that an execution of the op takes: one for a PUSH, 2^K for a PART (R116, R201). -/
def State.ordsTaken (s : State) (b : List Byte) : Nat :=
  if opcodeOf b = 0x16 then 1
  else if opcodeOf b = 0x06 then 2 ^ min 12 (fieldAt (s.bytesAt (s.toLocal (fieldAt b 0x10 8)) 64) 2 1)
  else 0
/-- A PART's check of the width of its local item galleys before any access (R202). -/
def State.partFault (s : State) (op : Op) : Option (Status × Nat) :=
  match op with
  | .part n _ d _ =>
    (List.range (2 ^ d.k)).findSome? fun i =>
      let ref := d.dtable.getD i 0
      let y := s.galley (galleyNo ref)
      if s.galleyLocal ref ∧ y.state ≠ .absent ∧ !y.packet ∧ y.width ≠ n then some (badPattern 5 ref) else none
  | _ => none
/-- The checks of R124 on the item's data op, and its begin. A PART whose ordinals would pass FFFF_FFFFh halts also where it
has no work (R201, assumption log 77). -/
def State.beginData (s : State) (c : Nat) (it : Item) (b : List Byte) : State :=
  if !dataFieldsOk b then s.haltBadOp c it
  else match (s.structs b)[it.structIdx]? with
    | some d => s.takeStruct c it d
    | none =>
      match s.decodeOp b (it.advance true) (it.advance false) with
      | .error e => s.nextFree.halt c e
      | .ok work =>
        if 2 ^ 32 < it.pushOrd + s.ordsTaken b then s.haltBadOp c it
        else match work with
        | none => s.finishOp c
        | some (op, total) =>
          match s.partFault op with
          | some e => s.halt c e
          | none =>
            let n := s.sched.nextSerial
            ({ s with sched := { s.sched with nextSerial := n + 1 } } : State).modItem c fun i =>
              { i with run := some { op := op, serial := n, total := total, ordBase := i.pushOrd } }
/-- A data op command. -/
def State.dataOp (s : State) (c code : Nat) : State :=
  s.runOp c (opIs code) fun it b => match it.run with
    | none => s.beginData c it b
    | some _ => s.advanceRun c

def execMove (c : Nat) (s : State) : Host.Outcome State Fault Refusal := .next (s.dataOp c 0x01)
def execFill (c : Nat) (s : State) : Host.Outcome State Fault Refusal := .next (s.dataOp c 0x02)
def execProof (c : Nat) (s : State) : Host.Outcome State Fault Refusal := .next (s.dataOp c 0x03)
def execSift (c : Nat) (s : State) : Host.Outcome State Fault Refusal := .next (s.dataOp c 0x04)
def execDecode (c : Nat) (s : State) : Host.Outcome State Fault Refusal := .next (s.dataOp c 0x05)
def execPart (c : Nat) (s : State) : Host.Outcome State Fault Refusal := .next (s.dataOp c 0x06)
def execTally (c : Nat) (s : State) : Host.Outcome State Fault Refusal := .next (s.dataOp c 0x07)
def execGather (c : Nat) (s : State) : Host.Outcome State Fault Refusal := .next (s.dataOp c 0x08)
def execScatter (c : Nat) (s : State) : Host.Outcome State Fault Refusal := .next (s.dataOp c 0x09)

end Sys2Proof.Machine
end

