-- ==== Sys2Proof/Machine/Legacy.lean ====
section
/-! DEFINITION. The PV-12 compatibility slots (R436 to R451): registers, START, ABORT, the end of a run, and the window of
the doorbell port. The commands' rows stand in LegacyCmds.lean. -/
namespace Sys2Proof.Machine

/-- OWNER of a slot (R437): 0 window, 1 dictionary. -/
def State.slotOwner (s : State) (k : Nat) : Nat := s.obj (0x8000 + k) 1
/-- The RW fields of CTRL that are not reserved (R439, R9). -/
def ctrlFields (v : Nat) : Nat := bitsOf v 2 4 * 4 + bitsOf v 8 24 * 256
/-- REMAINING (R440): of the present run while it runs, else as the last run left it. -/
def Slot.left (x : Slot) : Nat :=
  if x.state = 1 ∨ x.state = 3 then
    match x.run with
    | some r => x.workCount - r.progress x.faults
    | none => if x.zero then 0 else x.workCount
  else x.remaining
/-- The STATUS register (R440). -/
def Slot.status (x : Slot) : Nat := x.left * 2 ^ 32 + boolBit x.startIgnored 21 + x.state * 2 ^ 16 + x.code
/-- A read of a slot's register returns the shadow (R438, R442). -/
def Slot.readReg (x : Slot) (reg : Nat) : Nat :=
  match reg with
  | 0 => x.src
  | 8 => x.dst
  | 0x10 => x.count
  | 0x18 => x.ctrl
  | 0x20 => x.status
  | _ => 0
/-- A write of a register lands in the shadow (R442); STATUS and reserved offsets ignore it (R438). -/
def Slot.writeReg (x : Slot) (reg v : Nat) : Slot :=
  match reg with
  | 0 => { x with src := v % 2 ^ 64 }
  | 8 => { x with dst := v % 2 ^ 64 }
  | 0x10 => { x with count := v % 2 ^ 32 }
  | 0x18 => { x with ctrl := ctrlFields v }
  | _ => x
/-- Bytes of UNIT (R439). -/
def ctrlUnit (ctrl : Nat) : Nat := 2 ^ bitsOf ctrl 4 2
/-- A side of the run (R445). -/
def heldSide (hold : Bool) (unit a n : Nat) : Side :=
  if hold then .pattern { elem := unit, base := a, c0 := n / unit, c1 := 1, c2 := 1, s0 := 0, s1 := 0, s2 := 0 }
  else lineSide a n
/-- A START is taken (R443). -/
def State.canStart (s : State) (k : Nat) : Bool :=
  s.ctl.mode.traffic && (decide ((s.slot k).state = 0) || decide ((s.slot k).state = 2))
/-- The run begins from the shadow (R442, R445). -/
def State.startRun (s : State) (k : Nat) : State :=
  let x := s.slot k
  let unit := ctrlUnit x.ctrl
  let srcHold := bitOf x.ctrl 2
  let dstHold := bitOf x.ctrl 3
  let src := heldSide srcHold unit x.src x.count
  let dst := heldSide dstHold unit x.dst x.count
  let bad := (srcHold || dstHold) && decide (x.count % unit ≠ 0)
  let n := s.sched.nextSerial
  let y : Slot := { x with
    state := 1, startIgnored := false, workCtrl := x.ctrl, workCount := x.count, stalled := none, zero := decide (x.count = 0)
    faults := if bad then [{ status := .badPattern, detail := (badPattern 1 dst.total).2 }] else []
    run := if bad ∨ x.count = 0 then none else some { op := .move src dst, serial := n, total := src.total } }
  ({ s with sched := { s.sched with nextSerial := n + 1 } } : State).setSlot k y
/-- ABORT on a running slot (R444, R448): no new access; reads that wait for a grant are withdrawn. -/
def State.abortRun (s : State) (k : Nat) : State :=
  if (s.slot k).state = 1 then
    let s1 := s.withdraw fun r => match r.owner with
      | .opRead c _ _ => decide (c = legacyBase + k)
      | _ => false
    s1.setSlot k { s1.slot k with state := 3, stalled := none }
  else s
/-- A write of CTRL's action bits with its fields (R442 to R444), through the window or the dictionary. -/
def State.writeCtrl (s : State) (k v : Nat) : State :=
  let running := decide ((s.slot k).state = 1)
  let s1 := s.setSlot k ((s.slot k).writeReg 0x18 v)
  let s2 := if bitOf v 1 then s1.abortRun k else s1
  if bitOf v 0 then
    if !running ∧ s2.canStart k then s2.startRun k else s2.setSlot k { s2.slot k with startIgnored := true }
  else s2
/-- A write of a slot's register. -/
def State.writeSlot (s : State) (k reg v : Nat) : State :=
  if reg = 0x18 then s.writeCtrl k v else s.setSlot k ((s.slot k).writeReg reg v)

/-! ## The window (R421, R436 to R438) -/

/-- An access of the legacy window (R421): the state, the read data and the error flag of its response. -/
def State.windowAccess (s : State) (k reg : Nat) (write : Bool) (v : Nat) : State × Nat × Bool :=
  if s.slotOwner k = 1 then (s, 0, true)
  else if write then (s.writeSlot k reg v, 0, false)
  else (s, (s.slot k).readReg reg, false)
/-- The doorbell port takes an access (R420): fewer than 256 outstanding, SCHED not in reset, an identifier not in use. -/
def State.portTakes (s : State) (id : Nat) : Bool :=
  decide (s.sched.dbOutstanding.length < 256) && !s.sched.dbOutstanding.contains id && !(s.island schedIsland).unreachable
def State.takeAccess (s : State) (id : Nat) : State :=
  { s with sched := { s.sched with dbOutstanding := s.sched.dbOutstanding ++ [id] } }
/-- A window access presented with an identifier. -/
def State.windowPort (s : State) (id k reg : Nat) (write : Bool) (v : Nat) : State :=
  if s.portTakes id then
    let r := (s.takeAccess id).windowAccess k reg write v
    r.1.respond id r.2.1 r.2.2
  else s

/-! ## The end of a run (R446 to R448) -/

/-- STATE, CODE and REMAINING change in one cycle; then the event (R446). -/
def State.endSlot (s : State) (k code remaining : Nat) : State :=
  let x := s.slot k
  let s1 := s.setSlot k { x with state := 2, code := code, remaining := remaining, run := none, faults := [], stalled := none,
                                 zero := false }
  if bitOf x.workCtrl 11 then s1.post schedIsland (bitsOf x.workCtrl 12 4) else s1
/-- One further stage of a run: its segments, or its end once nothing is outstanding. -/
def State.runEnd (s : State) (k : Nat) : State :=
  let c := legacyBase + k
  let x := s.slot k
  let wait := s.chanAccess c || (bitOf x.workCtrl 11 && s.postFull schedIsland (bitsOf x.workCtrl 12 4))
  if x.state ≠ 1 ∧ x.state ≠ 3 then s
  else if x.run.isNone then
    if wait then s
    else if x.state = 3 then s.endSlot k Status.aborted.code x.workCount
    else match x.faults with
      | f :: _ => s.endSlot k f.status.code x.workCount
      | [] => s.endSlot k Status.doneZero.code 0
  else
    let s1 := s.advanceRun c
    let y := s1.slot k
    if s1.chanAccess c || wait then s1
    else match y.run with
      | none => s1
      | some r =>
        if y.state = 3 then s1.endSlot k Status.aborted.code (y.workCount - r.progress y.faults)
        else match y.faults with
          | f :: l =>
            let g := l.foldl (fun m h => if h.offset < m.offset then h else m) f
            s1.endSlot k g.status.code (y.workCount - r.progress y.faults)
          | [] => if r.phase = .finished then s1.endSlot k Status.done.code 0 else s1

end Sys2Proof.Machine
end

