-- ==== Sys2Proof/Machine/Accept.lean ====
section
/-! DEFINITION. The doorbell port and acceptance: doorbells (R72, R420 to R424), the checks
of a ring slot's header (R77), publication (R32 to R44). -/
namespace Sys2Proof.Machine

/-! ## DOORBELL -/

/-- Doorbells whose range ends at the consumer index are decided (R43); a refusal in a range shows in the acceptance
word (R40). -/
def State.decideBells (s : State) (c : Nat) : State :=
  let x := s.ctx c
  let done := x.bells.takeWhile fun b => b.upto = x.consumer
  let s1 := (done.foldl (fun t b => t.answerBell c b 0) s).modCtx c fun y => { y with bells := y.bells.drop done.length }
  if done.any fun b => decide (0 < b.refused) then s1.writeWord c else s1
/-- A doorbell that announces nothing waits behind the ranges not yet decided, or is answered at once (R424). -/
def State.emptyBell (s : State) (c id : Nat) : State :=
  let x := s.ctx c
  if x.bells.isEmpty then s.respondBell c id 0 0
  else s.setCtx c { x with bells := x.bells ++ [{ id := id, upto := x.producer, refused := 0, empty := true }] }
/-- The index lies within the two tests of R72. -/
def Ctx.indexOk (x : Ctx) (p : BitVec 32) : Bool :=
  decide ((p - x.consumer).toNat ≤ x.f.ringSize) && decide ((p - x.producer).toNat ≤ x.f.ringSize)
/-- A doorbell is judged (R72): the first case that applies answers it, or the range is announced. -/
def State.judgeBell (s : State) (id c : Nat) (p : BitVec 32) : State :=
  let x := s.ctx c
  if x.state = .closed then s.respondBell c id 0 2
  else if !x.indexOk p then (s.emptyBell c id).raise .badDoorbell
  else if !s.ctl.mode.traffic then (s.setCtx c { x with producer := x.consumer }).respondBell c id 0 1
  else if x.headerHalt then s.respondBell c id 0 4
  else if p = x.producer then s.emptyBell c id
  else if x.exhausted then (s.setCtx c { x with producer := x.consumer }).respondBell c id 0 3
  else (s.setCtx c { x with producer := p, bells := x.bells ++ [{ id := id, upto := p, refused := 0 }] }).askHeader c
/-- A doorbell arrives: one behind a CLOSE waits for it (R393), and where the mode accepts, one of an open context outside the cache
waits, its response with it, until the context is loaded (R17, R25, R44). -/
def State.ring (s : State) (id c : Nat) (p : BitVec 32) : State :=
  let x := s.ctx c
  if x.closing then s.setCtx c { x with late := x.late ++ [(id, p)] }
  else if x.state ≠ .closed ∧ !x.cached ∧ s.ctl.mode.traffic then s.setCtx c { x with early := x.early ++ [(id, p)] }
  else s.judgeBell id c p
/-- The doorbells that wait for the context's load are judged, in their order (R44). -/
def State.judgeEarly (s : State) (c : Nat) : State :=
  (s.ctx c).early.foldl (fun t e => t.judgeBell e.1 c e.2) (s.modCtx c fun x => { x with early := [] })
/-- An access of the doorbell port (R420): the doorbell at offset 0, whose word names the context in bits 17:0 and the producer index in
63:32, the legacy window from 1_0000h on by its slot and register, and any other offset, which answers an error (R421, R422). -/
def State.portAccess (s : State) (id : Nat) (write : Bool) (offset data : Nat) : State :=
  let off := offset / 8 * 8 % 2 ^ 17
  if 0x10000 ≤ off then s.windowPort id ((off - 0x10000) / 0x400) (off % 0x400) write data
  else if !s.portTakes id then s
  else
    let s1 := s.takeAccess id
    if off ≠ 0 then s1.respond id 0 true
    else if write then s1.ring id (bitsOf data 0 18) (BitVec.ofNat 32 (bitsOf data 32 32))
    else s1.respond id 0 false
def execDoorbell (id : Nat) (write : Bool) (offset data : Nat) (s : State) : Host.Outcome State Fault Refusal :=
  .next (s.portAccess id write offset data)
/-- The surroundings take a response (R420); those of one context leave in order (R424). -/
def State.takeResponse (s : State) (id : Nat) : State :=
  match s.sched.dbOut.find? fun r => r.id = id with
  | none => s
  | some r =>
    if r.ctx.isSome && (s.sched.dbOut.takeWhile fun q => q.id ≠ id).any fun q => q.ctx = r.ctx then s
    else { s with sched := { s.sched with dbOut := s.sched.dbOut.filter fun q => q.id ≠ id
                                          dbOutstanding := s.sched.dbOutstanding.filter fun i => i ≠ id } }
def execDoorbellResponseTaken (id : Nat) (s : State) : Host.Outcome State Fault Refusal := .next (s.takeResponse id)

/-! ## FORME_HEADER_FETCHED (R77) -/

/-- The item at the slot is refused (R35): the consumer index passes it. A slot that no doorbell waits for any more (R254)
shows its refusal in the acceptance word at once. -/
def State.refuse (s : State) (c : Nat) : State :=
  let alone := (s.ctx c).bells.isEmpty
  let s1 := (s.modCtx c fun x => { x with
    consumer := x.consumer + 1
    refused := satAdd u16Max x.refused 1
    header := .none
    bells := match x.bells with
      | b :: r => { b with refused := b.refused + 1 } :: r
      | [] => [] }).decideBells c
  (if alone then s1.writeWord c else s1).askHeader c
/-- The slot's item goes on to acceptance (R33): its ACCEPT record in KEEP and TWIN, and the next header. -/
def State.passHeader (s : State) (c seq a i flags : Nat) : State :=
  let go (t : State) (jpos : Option Nat) : State :=
    (t.modCtx c fun x => { x with
      header := .none, accepting := x.accepting ++ [{ seq := seq, slotIndex := i, slotAddr := a, flags := flags, jpos := jpos }] }).askHeader c
  if s.journaled then
    if admits s .accept then
      go (s.writeRecord { kind := .accept, ctx := c, slotIndex := i, seq := seq, slotAddr := a }) (some s.jrn.head)
    else s.journalFull .accept
  else go s none
/-- The first failing check of R77 decides. A halt waits until no earlier item runs or is on its way to acceptance, a
refusal, a stop and NOT_ACCEPTING until the earlier ones are accepted (R73, R37). -/
def State.headerFetched (s : State) (c : Nat) : State :=
  let x := s.ctx c
  let i := s.nextSlot c
  let a := slotAddr x.f i
  let n := (s.byteAt (a + 1)).toNat
  let ops := if n = 0 then 256 else n
  let seq := s.numAt (a + 8) 8
  let clear := x.accepting.isEmpty && x.items.isEmpty
  let high := match x.accepting.getLast? with
    | some e => e.seq
    | none => x.accepted
  if decide (x.header ≠ .got) || decide (x.producer = BitVec.ofNat 32 i) || !x.cached then s
  else match x.headerFault with
  | some f => if clear then s.haltHeader c f else s
  | none =>
  match s.firstDenied x.f.windowSet rightRead x.f.ringBase (x.f.ringSize * x.f.slotSize) with
    | some d => if clear then s.haltHeader c { status := .protection, detail := d, cause := 5, address := d } else s
    | none =>
      if (s.byteAt a).toNat ≠ 1 ∨ x.f.slotSize < 0x40 + 0x20 * ops then
        if clear then s.haltHeader c { status := .badOp } else s
      else if seq ≤ high then if x.accepting.isEmpty then s.refuse c else s
      else if seq = maxU64 then
        if x.accepting.isEmpty then (s.cutBells c 3 x.consumer).modCtx c fun y => { y with exhausted := true } else s
      else if !s.ctl.mode.traffic then if x.accepting.isEmpty then s.cutBells c 1 x.consumer else s
      else s.passHeader c seq a (i % 2 ^ 32) (s.numAt (a + 2) 2)
def execFormeHeaderFetched (ctx : Nat) (s : State) : Host.Outcome State Fault Refusal := .next (s.headerFetched ctx)

/-! ## ITEM_ACCEPTED (R32, R33) -/

/-- The durability of R33 is reached. -/
def State.acceptable (s : State) (e : Accepting) : Bool :=
  match e.jpos with
  | some p => s.durable p
  | none => true
/-- Publish the acceptance: the mark, the consumer index, the acceptance word, the doorbells decided by it; an idle
channel begins the item. -/
def State.publish (s : State) (c : Nat) (e : Accepting) : State :=
  let first := (s.ctx c).items.isEmpty
  let s1 := s.modCtx c fun x => { x with
    accepting := x.accepting.drop 1
    accepted := e.seq
    acceptEpoch := if s.journaled then s.jrn.epoch else 0
    acceptMode := s.ctl.rulesOf.code
    consumer := x.consumer + 1
    items := x.items ++ [{ slotIndex := e.slotIndex, slotAddr := e.slotAddr, seq := e.seq, blockAddr := e.slotAddr,
                            slotFlags := e.flags }] }
  let s2 := (s1.writeWord c).decideBells c
  (if first then s2.beginNext c else s2).askHeader c
/-- No acceptance at a lower position waits: JRN publishes them in position order (R269). -/
def State.publishTurn (s : State) (e : Accepting) : Bool :=
  match e.jpos with
  | some p => !(s.ctxs.any fun x => x.2.accepting.any fun a => a.jpos.any fun q => decide (q < p))
  | none => true
def State.itemAccepted (s : State) (c : Nat) : State :=
  match (s.ctx c).accepting with
  | e :: _ => if s.ctl.mode.traffic && s.acceptable e && s.publishTurn e && (s.ctx c).cached then s.publish c e else s
  | [] => s
def execItemAccepted (ctx : Nat) (s : State) : Host.Outcome State Fault Refusal := .next (s.itemAccepted ctx)

end Sys2Proof.Machine
end

