-- ==== Sys2Proof/Machine/Flags.lean ====
section
/-! DEFINITION. The signals of ops (R85, R88, R345, R346) and the counter effects (R97, R106, R277, R282). -/
namespace Sys2Proof.Machine

/-- The address of counter c of group g (R97). -/
def State.counterAddr (s : State) (g c : Nat) : Nat := s.obj 0xA100 0 / 4096 * 4096 + (g * 65536 + c) * 8
/-- A WAIT's condition on a counter value (R99). -/
def waitHolds (cond value v : Nat) : Bool := if cond = 0 then decide (value ≤ v) else decide (v = value)
/-- The COUNTER record of this item's counter ordinal is in the ring already (R48, R282). -/
def State.counterRecorded (s : State) (c seq ord : Nat) : Bool :=
  s.jrn.log.any fun r => r.kind = .counter && decide (r.ctx = c) && decide (r.seq = seq) && decide (r.ord = ord)
/-- Every effect of the stream's earlier ops is acknowledged (R105, R110 for STREAM). -/
def State.streamAcked (s : State) (c : Nat) : Bool :=
  !(s.owners.any fun o => match o.op with
    | some (d, n) => decide (d = c) && decide (s.opSerial c ≠ some n)
    | none => false)
/-- The offset of a fault that is not of the op's stream: P of an op whose data is done (R132). -/
def State.doneOffset (s : State) (c : Nat) : Nat := match s.run c with
  | some r => r.total
  | none => 0
/-- Read a counter for the channel's op: under a lock with its block for an update (R233), plain for a WAIT (R100), whose read
makes it no earlier op of a RULE (R113). -/
def State.readCounter (s : State) (c : Nat) (k : CounterOp) (requester : Nat) (locked : Bool) : State :=
  let a := s.counterAddr k.group k.counter
  match s.portOf a with
  | none => s.fail c { offset := s.doneOffset c, status := .busFault, detail := a, cause := 1, address := a, signal := k.forSignal }
  | some p =>
    if s.portDown p then s.stall c (.domain p a (s.doneOffset c))
    else
      ((if locked then s.claim c else s).modItem c fun it => { it with counterOp := some k }).present p false
        { owner := .counterRead c, requester := requester, cls := (s.ctx c).f.cls, presented := none, locked := locked,
          block := if locked then some (beatOf a) else none, parked := false,
          beats := [{ addr := beatOf a, len := 8, side := 0, data := [], offset := 0, first := a, attempts := 0 }] }
/-- Begin a counter effect (R106, R277): its burst waits for SCHED (R220, R233). Nothing is added again for an ordinal already
journaled (R282); `done` is what follows then. -/
def State.beginCounter (s : State) (c : Nat) (it : Item) (g n v : Nat) (forSignal : Bool) (done : State → State) : State :=
  if s.journaled ∧ s.counterRecorded c it.seq it.ctrOrd then
    done (s.modItem c fun i => { i with ctrOrd := i.ctrOrd + 1, signalled := i.signalled || forSignal })
  else s.modItem c fun i => { i with
    counterOp := some { group := g, counter := n, value := v, ord := it.ctrOrd, forSignal := forSignal }
    signalled := i.signalled || forSignal }
/-- Tell the WAITs of a counter its new value (R100, R103): a waiting one that it satisfies completes, and one that is on its
way into the wait table will test it. -/
def State.wakeWaits (s : State) (g n v : Nat) : State :=
  s.ctxs.foldl (fun t e =>
    match e.2.waitOn with
    | some (.counter g' n' value cond _) =>
      if g' = g ∧ n' = n then
        if waitHolds cond value v then
          ((t.modCtx e.1 fun x => { x with waitOn := none, state := .running, fuse := 0 }).modItem e.1 fun it =>
            { it with counterOp := none }).finishOp e.1
        else t.modCtx e.1 fun x => { x with waitOn := some (.counter g' n' value cond v) }
      else t
    | _ => t.modItem e.1 fun it => match it.counterOp with
      | some k => if k.value = 0 ∧ k.group = g ∧ k.counter = n then { it with counterOp := some { k with news := k.news ++ [v] } } else it
      | none => it) s
/-- The counter write of a channel is answered (R277, R96, R233): the effect stands, its WAITs test again. -/
def State.counterApplied (s : State) (c : Nat) : State :=
  match s.item c with
  | none => s
  | some it =>
    match it.counterOp with
    | none => s
    | some k =>
      let v := (k.old.getD 0 + k.value) % 2 ^ 64
      let s1 := (s.modItem c fun i => { i with counterOp := none, ctrOrd := i.ctrOrd + 1 }).modCtx c fun x => { x with fuse := 0 }
      let s2 := if k.forSignal then s1 else s1.finishOp c
      s2.wakeWaits k.group k.counter v
/-- The COUNTER record of an effect (R275). -/
def counterRecord (c : Nat) (it : Item) (k : CounterOp) : Record :=
  { kind := .counter, ctx := c, seq := it.seq, ord := k.ord, old := k.old.getD 0, value := k.value, group := k.group,
    counter := k.counter, opIndex := it.opIndex, block := it.blockNo }
/-- One stage of a counter update whose read has returned (R277): the record, then the write of the sum. -/
def State.counterUpdate (s : State) (c : Nat) : State :=
  match s.item c with
  | none => s
  | some it =>
    match it.counterOp with
    | none => s
    | some k =>
      if k.value = 0 ∨ k.old.isNone ∨ k.written then s
      else if s.journaled ∧ k.jpos.isNone then
        if admits s .counter then
          (s.writeRecord (counterRecord c it k)).modItem c fun i => { i with counterOp := some { k with jpos := some s.jrn.head } }
        else s.journalFull .counter
      else if (match k.jpos with
               | some p => !s.inRing p
               | none => false) then s
      else
        let a := s.counterAddr k.group k.counter
        (s.modItem c fun i => { i with counterOp := some { k with written := true } }).presentBeat
          { owner := .counterWrite c, requester := laneReq k.lane, cls := (s.ctx c).f.cls, presented := none, locked := true,
            block := some (beatOf a), parked := false, holds := true, beats := [] }
          a (leBytes 8 ((k.old.getD 0 + k.value) % 2 ^ 64))
/-- The op completes acknowledged (R241): its own flags, ACK_ALL, or the op itself. -/
def needsAck (it : Item) (b : List Byte) : Bool := opAck b || opCnt b || opEvt b || bitOf it.flags 0 || opIs 0x13 b
/-- A request of the op still waits for its first grant: what it writes is not posted. A tile that Sn holds has left its lane
(R240, R366). -/
def State.opUnposted (s : State) (c n : Nat) : Bool :=
  s.ports.any fun e => (e.2.rd.queue ++ e.2.wr.queue).any fun r =>
    r.owner.op = some (c, n) && !r.posted
/-- The op in progress is complete in the sense of R241. -/
def State.opSettled (s : State) (c : Nat) (it : Item) (b : List Byte) : Bool :=
  match it.opSerial with
  | none => true
  | some n => if needsAck it b then !s.opAccess c n else !s.opUnposted c n
/-- Where the program goes on after the op, and what the op leaves in the item (R92, R95, R201). -/
def Item.afterOp (it : Item) (partOrds : Nat) : Item :=
  let base : Item := { it with
    fetch := .none, structIdx := 0, opSerial := none, opDone := false, signalled := false,
    quiet := false, nextIdx := none, nextBlock := none, run := none, counterOp := none, popped := none, popWait := none, pushOrd := it.pushOrd + partOrds }
  match it.nextBlock with
  | some a => { base with block := it.block + 1, blockAddr := a, opCount := 0, opIdx := 0, beats := [] }
  | none => { base with opIdx := it.nextIdx.getD (it.opIdx + 1) }
/-- The item goes on to its next op, or after an END to the steps of R82. -/
def State.nextOp (s : State) (c : Nat) (b : List Byte) : State :=
  if opIs 0x1F b then s.modItem c fun i => { i with ended := true, opDone := false, opSerial := none }
  else (s.modItem c fun i => i.afterOp (s.ordsTaken b)).askFetch c
/-- The sequence of the item whose completed op still has writes on their way (R468). -/
def State.keepPosted (s : State) (c : Nat) (it : Item) : State :=
  let live := s.sched.posted.filter fun e => s.owners.any fun o => match o.op with
    | some (_, n) => decide (n = e.1)
    | none => false
  let now := match it.opSerial with
    | some n => if s.opAccess c n then [(n, it.seq)] else []
    | none => []
  { s with sched := { s.sched with posted := live ++ now } }

end Sys2Proof.Machine
end

