-- ==== Sys2Proof/Machine/Pool.lean ====
section
/-! DEFINITION. POOL: its work at the memory ports (R155), cells and their headers (R154 to R159), units, marks and seals (R167 to
R177, R469), capacity (R182 to R185), flush and rebuild (R187 to R192), and the release of an item's marks and held entries (R174,
R179). -/
namespace Sys2Proof.Machine

/-! ## POOL's work at memory (R155, R221; assumption log 13) -/

def State.poolCells (s : State) : Nat := s.obj 0x7001 0
def State.cellAddr (s : State) (k : Nat) : Nat := s.obj 0x7000 0 / 2 ^ 20 * 2 ^ 20 + k * 1024
def State.descAddr (s : State) (g : Nat) : Nat := s.obj 0x7002 0 / 4096 * 4096 + g * 128
def State.markAddr (s : State) (slot : Nat) : Nat := s.obj 0x7003 0 / 4096 * 4096 + (slot - 1) * 32
/-- The beats of a write, and of a read of n bytes. -/
def writeBeats (a : Nat) (bs : List Byte) : List Beat :=
  (blocksOf a bs).map fun e => { addr := beatOf e.1, len := e.2.length, side := 0, data := placed e.1 e.2, offset := 0, first := e.1, attempts := 0 }
def spanBeats (a n : Nat) : List Beat :=
  (List.range ((a % 128 + n + 127) / 128)).map fun i =>
    { addr := beatOf a + i * 128, len := 0, side := 0, data := [], offset := 0, first := max a (beatOf a + i * 128), attempts := 0 }
/-- The places of n payload bytes from an offset in the first of some cells on (R160, R161): (address, count). -/
def State.payloadRuns (s : State) : List Nat → Nat → Nat → List (Nat × Nat)
  | [], _, _ => []
  | k :: r, off, n => (s.cellAddr k + 0x20 + off, min (992 - off) n) :: State.payloadRuns s r 0 (n - (992 - off))
/-- The 128 B of a galley's descriptor (R191; its layout is a DESIGN CHOICE, assumption log 10). -/
def descBytes (jpos : Nat) (head tail : Option Nat) (headOff tailLen : Nat) (y : Galley) : List Byte :=
  leBytes 8 jpos ++ leBytes 4 (head.getD 0) ++ leBytes 4 (tail.getD 0) ++ leBytes 2 headOff ++ leBytes 2 tailLen ++
    leBytes 2 (boolBit head.isSome 0 + boolBit y.packet 1) ++ leBytes 2 y.width ++ leBytes 4 y.reserve ++ leBytes 4 y.limit ++ leBytes 96 0
/-- A galley as it stands once the seal under way has taken effect. -/
def Galley.sealed (y : Galley) : Galley :=
  match y.sealing with
  | some x => { y with cells := y.cells ++ x.cells, entries := y.entries ++ x.entries, tailLen := x.tailLen }
  | none => y
/-- The descriptor as the galley stands, or with its seal (R173, R191). -/
def State.descNow (s : State) (g : Nat) (withSeal : Bool) : List Byte :=
  let y := if withSeal then (s.galley g).sealed else s.galley g
  descBytes s.jrn.head y.cells.head? y.cells.getLast? ((y.entries.head?.map (·.offset)).getD 0) (y.tailLen.getD 0) y
/-- The accesses of a job: whether it writes, and its beats. An entry within one cell is read by its payload alone (R180); one that
continues is read cell by cell, headers and all. -/
def State.jobBeats (s : State) (j : PoolJob) : Bool × List Beat :=
  match j with
  | .write a bs => (true, writeBeats a bs)
  | .desc g w => (true, writeBeats (s.descAddr g) (s.descNow g w))
  | .rewrite _ k _ _ _ => (false, spanBeats (s.cellAddr k) 1024)
  | .refill _ k => (false, spanBeats (s.cellAddr k) 1024)
  | .walk _ k _ => (false, spanBeats (s.cellAddr k) 1024)
  | .payload _ _ _ cells off n _ =>
    (false, match cells with
      | [_] => (s.payloadRuns cells off n).flatMap fun e => spanBeats e.1 e.2
      | _ => cells.flatMap fun k => spanBeats (s.cellAddr k) 1024)
  | .rebuild g => (false, spanBeats (s.descAddr g) 128)
  | .marks g => (false, (((s.galley g).entries.map (·.markSlot)).filter (· ≠ 0)).flatMap fun i => spanBeats (s.markAddr i) 32)
  | .sealBegin _ | .sealEnd _ | .rebuilt _ | .answer => (false, [])
/-- The beat is a write that a stash port takes (R426). -/
def State.toStash (s : State) (write : Bool) (b : Beat) : Bool := write && (s.stashTakes b.first).isSome
/-- Present beats at the ports whose ranges hold them, with POOL's class (R221), writes in a stash range at their stash port (R426); what
lies in no range is not issued (R419). -/
def State.poolAccess (s : State) (write : Bool) (bs : List Beat) : State :=
  let r : PortReq := { owner := .pool, requester := poolReq, cls := s.obj 0x4032 0, beats := [], presented := none, locked := false,
                       block := none, parked := false }
  let plain := bs.filter fun b => !s.toStash write b
  let s1 := if write then s.countFallbacks (plain.map (·.first)) else s
  let s2 := (bs.filter fun b => s.toStash write b).foldl (fun t b => match s.stashTakes b.first with
    | some n => t.giveTiles n r b.first 0 (b.data.map (·.2))
    | none => t) s1
  (List.range 8).foldl (fun t p =>
    let mine := plain.filter fun b => s.portOf b.addr = some p
    (chunks 32 mine.length).foldl (fun u c => u.present p write { r with beats := (mine.drop c.1).take c.2 }) t) s2
/-- POOL begins the first of its work, if that has accesses, nothing is under way and POOL does not wait itself (R346, R347). -/
def State.poolStart (s : State) : State :=
  match s.pool.jobs with
  | [] => s
  | j :: _ =>
    let bs := (s.jobBeats j).2.filter fun b => (s.portOf b.addr).isSome
    if s.pool.busy || bs.isEmpty || s.unitWaits poolIsland then s
    else ({ s with pool := { s.pool with busy := true } } : State).poolAccess (s.jobBeats j).1 bs
/-- Further work, behind what waits. -/
def State.poolJobs (s : State) (l : List PoolJob) : State :=
  ({ s with pool := { s.pool with jobs := s.pool.jobs ++ l } } : State).poolStart
/-- Work that comes first. -/
def State.poolFirst (s : State) (l : List PoolJob) : State := { s with pool := { s.pool with jobs := l ++ s.pool.jobs } }
/-- Waiting work that the test accepts is given up; what is under way stays the first. -/
def State.dropJobs (s : State) (f : PoolJob → Bool) : State :=
  match s.pool.jobs with
  | [] => s
  | j :: l =>
    let l' := l.filter fun x => !f x
    { s with pool := { s.pool with jobs := if s.pool.busy || !f j then j :: l' else l' } }

/-! ## Cells -/

/-- The 32 B of a cell header over a payload (R157). -/
def cellHeader (firstSeq next length flags galley firstOrd : Nat) (payload : List Byte) : List Byte :=
  let b := leBytes 8 firstSeq ++ leBytes 4 next ++ leBytes 4 next ++ leBytes 2 length ++ leBytes 2 flags ++
    leBytes 4 galley ++ leBytes 4 firstOrd
  b ++ leBytes 4 (crc32c (b ++ payload))
def flagLast : Nat := 1
def flagPacket : Nat := 2
def flagStaging : Nat := 4
def flagFree : Nat := 8
def flagCont : Nat := 16
def State.cellField (s : State) (k off n : Nat) : Nat := s.numAt (s.cellAddr k + off) n
def State.cellLength (s : State) (k : Nat) : Nat := s.cellField k 0x10 2
def State.payload (s : State) (k : Nat) : List Byte := s.bytesAt (s.cellAddr k + 0x20) (s.cellLength k)
/-- A cell header that has been read passes the check of R159 for a galley. -/
def State.cellOk (s : State) (k g : Nat) : Bool :=
  decide (s.cellField k 0x1C 4 = crc32c (s.bytesAt (s.cellAddr k) 0x1C ++ s.payload k)) &&
    (bitOf (s.cellField k 0x12 2) 0 || decide (s.cellField k 8 4 = s.cellField k 0xC 4)) &&
    decide (s.cellField k 0x14 4 % 2 ^ 17 = g)
/-- The write of a whole cell. NEXT_A and NEXT_B of the last cell of a chain are written 0 (DESIGN CHOICE: R158 ignores them,
assumption log 70). -/
def State.cellWrite (s : State) (k firstSeq next flags galley firstOrd : Nat) (payload : List Byte) : PoolJob :=
  .write (s.cellAddr k) (cellHeader firstSeq next payload.length flags galley firstOrd payload ++ payload)
/-- The writes of a chain of fresh cells: each part of the payload in its cell, each linked to the next (R157, R170). `cont` says
that the first continues a packet. -/
def State.chainWrites (s : State) (g : Nat) (packet staging cont : Bool) (seq ord : Nat) (cells : List Nat) (parts : List (List Byte)) :
    List PoolJob :=
  (cells.zip (List.range cells.length)).map fun x =>
    let last := decide (x.2 + 1 = cells.length)
    s.cellWrite x.1 seq (if last then 0 else cells.getD (x.2 + 1) 0)
      (boolBit last 0 + boolBit packet 1 + boolBit staging 2 + boolBit (packet && (cont || decide (0 < x.2))) 4) g ord (parts.getD x.2 [])
/-- The writes that a read and checked cell takes (R157): bytes behind its payload, PLEN at its payload's begin, its link, STAGING
cleared. The payload is written before the header. -/
def State.rewriteJobs (s : State) (g k : Nat) (next : Option Nat) (add : List Byte) (plen : Option Nat) : List PoolJob :=
  let old := s.payload k
  let body := (match plen with
    | some n => leBytes 4 n ++ old.drop 4
    | none => old) ++ add
  let flags := s.cellField k 0x12 2 / 2 * 2 + boolBit next.isNone 0
  let flags' := if bitOf flags 2 then flags - flagStaging else flags
  (match plen with
   | some n => [PoolJob.write (s.cellAddr k + 0x20) (leBytes 4 n)]
   | none => []) ++
  (if add.isEmpty then [] else [PoolJob.write (s.cellAddr k + 0x20 + old.length) add]) ++
  [PoolJob.write (s.cellAddr k) (cellHeader (s.cellField k 0 8) (next.getD 0) body.length flags' g (s.cellField k 0x18 4) body)]

/-- Free cells in all (R156), none without a pool (R193), the unused part of a galley's reservation, and the shared free cells (R182). -/
def State.freeCells (s : State) : Nat :=
  if s.poolCells = 0 then 0 else s.pool.freeList.length + (s.poolCells - s.pool.nextCell)
def Galley.freshCells (y : Galley) : Nat := (y.sealing.map (·.fresh.length)).getD 0
def Galley.cellCount (y : Galley) : Nat := y.cells.length + y.units.foldl (fun n u => n + u.cells.length) 0 + y.freshCells
def Galley.unusedReserve (y : Galley) : Nat := if y.state = .absent then 0 else y.reserve - y.cellCount
def State.reservedUnused (s : State) : Nat := s.pool.galleys.foldl (fun n e => n + e.2.unusedReserve) 0
def State.sharedFree (s : State) : Nat := s.freeCells - s.reservedUnused
/-- The galley can draw n cells (R182, R183); a pool without cells gives none (R193). -/
def State.canDraw (s : State) (g n : Nat) : Bool :=
  n = 0 || (s.poolCells ≠ 0 && decide (n ≤ (s.galley g).unusedReserve + s.sharedFree))
/-- POOL_LOW_8 and POOL_LOW_64 at a crossing (R185). -/
def State.poolLow (s : State) : State :=
  let f := s.sharedFree
  let n := s.poolCells
  let arm8 := s.pool.low8 && !decide (n < 4 * f)
  let arm64 := s.pool.low64 && !decide (n < 32 * f)
  let hit8 := !arm8 && decide (8 * f < n)
  let hit64 := !arm64 && decide (64 * f < n)
  (({ s with pool := { s.pool with low8 := arm8 || hit8, low64 := arm64 || hit64 } } : State).raiseIf hit8 .poolLow8).raiseIf
    hit64 .poolLow64
/-- POOL allocates a cell: the head of the free list (DESIGN CHOICE, R156 names no end of it, assumption log 70), or the lowest index
never allocated. -/
def State.allocCell (s : State) : State × Nat :=
  match s.pool.freeList with
  | k :: r => ({ s with pool := { s.pool with freeList := r } }, k)
  | [] => ({ s with pool := { s.pool with nextCell := s.pool.nextCell + 1 } }, s.pool.nextCell)
def State.allocCells (s : State) : Nat → State × List Nat
  | 0 => (s, [])
  | n + 1 => let a := s.allocCell; let b := State.allocCells a.1 n; (b.1, a.2 :: b.2)
/-- POOL returns a cell to the head of the free list with its header; the payload of a free cell is undefined (R156, assumption log
70). -/
def State.freeCell (s : State) (k : Nat) : State :=
  let last := s.pool.freeList.isEmpty
  let s1 := (s.poolJobs [.write (s.cellAddr k) (cellHeader 0 (s.pool.freeList.headD 0) 0 (flagFree + boolBit last 0) 0 0 [] ++
    (List.range 992).map fun i => Config.cellByte s.free i)]).nextFree
  { s1 with pool := { s1.pool with freeList := k :: s1.pool.freeList } }
/-- Cells that their galley has given up already return to the free list (R185 looks at the outcome). -/
def State.freeAll (s : State) (ks : List Nat) : State := (ks.foldl State.freeCell s).poolLow

/-! ## Entries and chains -/

def Galley.poppable (y : Galley) : List Entry := y.entries.filter fun e => e.heldBy.isNone
def Galley.held (y : Galley) : List Entry := y.entries.filter fun e => e.heldBy.isSome
/-- The bytes of a unit: by PIECE_NO for a PUSH and from the fabric, for a PART of this device in the order in which POOL stored its
pieces (R169, R203). -/
def OpenUnit.bytes (u : OpenUnit) : List Byte := u.parts.flatMap (·.2)
/-- The entries a unit holds: items of W bytes, or one packet (R160, R161). -/
def Galley.entriesIn (y : Galley) (n : Nat) : Nat := if y.packet then 1 else if y.width = 0 then 0 else n / y.width
def Galley.entryCount (y : Galley) : Nat := y.entries.length + y.units.foldl (fun n u => n + y.entriesIn u.bytes.length) 0
/-- The payload bytes of a unit with a packet's header before them (R161); PLEN is a U32 (a PART's packet of 2^32 bytes or more has
it modulo 2^32, DESIGN CHOICE: R162 speaks of PUSH only, assumption log 85). -/
def Galley.unitPayload (y : Galley) (plen : Nat) (d : List Byte) : List Byte := if y.packet then leBytes 4 plen ++ leBytes 4 0 ++ d else d
/-- The payload bytes that a cell of the galley holds at most (R160, R161). -/
def Galley.cellRoom (y : Galley) : Nat := if y.packet then 992 else if y.width = 0 then 992 else 992 / y.width * y.width
/-- The payload bytes of n unit bytes, and the cells that hold them on their own (R160, R161, R170). -/
def Galley.payloadLen (y : Galley) (n : Nat) : Nat := if y.packet then n + 8 else n
def Galley.stagingCells (y : Galley) (n : Nat) : Nat := (y.payloadLen n + y.cellRoom - 1) / y.cellRoom
/-- Where a buffered unit begins in a tail of `len` payload bytes, and how many of its n payload bytes go there (R160, R161, R170). A
packet begins at a multiple of 8; what lies before it is written as zeros and counts in LENGTH (DESIGN CHOICE, assumption log 85). -/
def Galley.tailRoom (y : Galley) (len : Option Nat) (n : Nat) : Nat × Nat :=
  match len with
  | none => (0, 0)
  | some l =>
    if y.packet then (let o := (l + 7) / 8 * 8; if o + 8 ≤ 992 then (o, min n (992 - o)) else (o, 0))
    else (l, min (n / y.width) ((y.cellRoom - l) / y.width) * y.width)
/-- The new cells the append of a buffered unit of n bytes needs behind its galley's tail. -/
def Galley.appendCells (y : Galley) (n : Nat) : Nat :=
  let p := y.payloadLen n
  (p - (y.tailRoom (if y.cells.isEmpty then none else y.tailLen) p).2 + y.cellRoom - 1) / y.cellRoom
/-- Both copies of head and tail follow the chain (R190). -/
def State.syncPointers (s : State) (g : Nat) : State :=
  let y := s.galley g
  let h := y.cells.head?
  let t := y.cells.getLast?
  s.setGalley g { y with headA := h, headB := h, tailA := t, tailB := t }
/-- The galley's descriptor is written as the galley stands when POOL comes to it (R191). -/
def State.writeDesc (s : State) (g : Nat) : State := s.poolJobs [.desc g false]
def Entry.ref (e : Entry) : EntryRef := { cell := e.cells.headD 0, offset := e.offset, length := e.length }
/-- The head buffer is filled from the chain as entries leave it (R180): the cell of the first entry it has no reference of is
read. -/
def State.poolRefill (s : State) (g : Nat) : State :=
  let y := s.galley g
  let asked := s.pool.jobs.any fun j => match j with
    | .refill h _ => decide (h = g)
    | _ => false
  if 8 ≤ y.heads.length ∨ asked then s
  else match y.poppable[y.heads.length]? with
    | some e => s.poolJobs [.refill g (e.cells.headD 0)]
    | none => s
/-- Entries that have become poppable enter the head buffer while it holds every one before them (R180, R186). -/
def Galley.fillHeads (y : Galley) (new : List Entry) : List EntryRef :=
  if y.heads.length = y.poppable.length then y.heads ++ (new.take (8 - y.heads.length)).map Entry.ref else y.heads

/-! ## Marks (R171 to R177) -/

def PushMark.same (m : PushMark) (p : Piece) : Bool := m.galley = p.galley && decide (m.stream = p.stream)
def PushMark.is (m : PushMark) (p : Piece) : Bool := m.same p && decide (m.seq = p.seq) && decide (m.ord = p.ord)
/-- a is a higher ATTEMPT than b (R281). -/
def attemptAbove (a b : BitVec 32) : Bool := decide (1 ≤ (a - b).toNat) && decide ((a - b).toNat ≤ 2 ^ 31 - 1)
/-- The mark of the piece's own unit. -/
def Pool.markOf (q : Pool) (p : Piece) : Option PushMark := q.marks.find? fun m => m.is p
/-- The piece lies below the stream's mark on its galley (R172): below its sequence, or below the ordinals of it that have sealed; a
unit that is still open beside another of its item keeps its own mark (R200, R201, assumption log 85). -/
def Pool.below (q : Pool) (p : Piece) : Bool :=
  q.marks.any fun m => m.counted && m.same p && (decide (p.seq < m.seq) || (decide (p.seq = m.seq) &&
    ((m.state = .sealed && decide (p.ord < m.ord)) || m.floor.any fun f => decide (p.ord ≤ f))))
/-- The entries of the mark table in use: push marks and pop marks (R175). -/
def Pool.marksUsed (q : Pool) : Nat :=
  (q.marks.filter (·.counted)).length + q.galleys.foldl (fun n e => n + (e.2.held.filter fun x => x.markSlot ≠ 0).length) 0
/-- The places in use, counted from 1; a new mark takes the lowest free one (assumption log 12). -/
def Pool.slotsUsed (q : Pool) : List Nat :=
  (q.marks.filter (·.counted)).map (·.slot) ++ q.galleys.flatMap fun e => (e.2.held.map (·.markSlot)).filter (· ≠ 0)
def Pool.freeSlot (q : Pool) : Nat :=
  let used := q.slotsUsed
  ((List.range (used.length + 1)).find? fun i => !used.contains (i + 1)).getD 0 + 1
def markBytes (seq galley kind stream state ord attempt position : Nat) : List Byte :=
  leBytes 8 seq ++ leBytes 4 (galley + kind * 2 ^ 30) ++ leBytes 4 (stream + state * 2 ^ 30) ++ leBytes 4 ord ++ leBytes 4 attempt ++
    leBytes 8 position
def Stream.word (t : Stream) : Nat := t.ctx % 2 ^ 18 + t.node % 4096 * 2 ^ 18
/-- The write of a push mark's entry in the mark table (R176). A flushed or aborted mark reads OPEN there, 00b (DESIGN CHOICE: R176
gives it no code, assumption log 85). -/
def State.markJobs (s : State) (m : PushMark) (staging : Nat) : List PoolJob :=
  if m.counted then [.write (s.markAddr m.slot)
    (markBytes m.seq m.galley 1 m.stream.word (if m.state = .sealed then 1 else 0) m.ord m.attempt.toNat staging)]
  else []
def State.clearMark (s : State) (slot : Nat) : State := if slot = 0 then s else s.poolJobs [.write (s.markAddr slot) (leBytes 32 0)]
/-- The stream's marks on the galley that a new unit's mark replaces (R172): all but those of units of the same sequence that are still
open. -/
def Pool.replaced (q : Pool) (p : Piece) : List PushMark :=
  q.marks.filter fun m => m.counted && m.same p && !(m.state = .opened && decide (m.seq = p.seq) && decide (m.ord ≠ p.ord))
/-- The highest ordinal of the sequence known to have sealed. -/
def sealedFloor (l : List PushMark) (seq : Nat) : Option Nat :=
  ((l.filter fun m => decide (m.seq = seq)).flatMap fun m => (if m.state = .sealed then [m.ord] else []) ++ m.floor.toList).max?
/-- A new unit opens: its mark takes the place of those it replaces (R172), and what POOL remembered of flushed and aborted units of the
stream goes (R188, R469). -/
def State.openMark (s : State) (p : Piece) (staging : Nat) : State :=
  let old := s.pool.replaced p
  let slot := match old with
    | m :: _ => m.slot
    | [] => s.pool.freeSlot
  let m : PushMark := { galley := p.galley, stream := p.stream, seq := p.seq, ord := p.ord, attempt := p.attempt, state := .opened,
                        slot := slot, floor := sealedFloor old p.seq }
  let s1 := (old.drop 1).foldl (fun t x => t.clearMark x.slot) s
  ({ s1 with pool := { s1.pool with marks := (s1.pool.marks.filter fun x => !(old.contains x || (!x.counted && x.same p))) ++ [m] } } :
    State).poolJobs (s1.markJobs m staging)
/-- The unit of a piece has sealed: its mark is SEALED, and stands for the lower ones of its sequence (R172). -/
def State.sealMark (s : State) (p : Piece) : State :=
  let higher := s.pool.marks.any fun m => m.counted && m.same p && decide (m.seq = p.seq) && m.state = .sealed && decide (p.ord < m.ord)
  let gone (m : PushMark) : Bool := m.counted && m.same p && decide (m.seq = p.seq) &&
    (if higher then decide (m.ord = p.ord) else m.state = .sealed && decide (m.ord < p.ord))
  let s1 := (s.pool.marks.filter gone).foldl (fun t m => t.clearMark m.slot) s
  let kept := (s1.pool.marks.filter fun m => !gone m).map fun m => if m.is p then { m with state := .sealed } else m
  { s1 with pool := { s1.pool with marks := kept } }
/-- The unit of a piece is remembered as flushed or aborted (R187, R469): in its mark, or for a producer in FLOW beside the table. -/
def State.noteUnit (s : State) (p : Piece) (st : MarkState) (restart : Bool) : State :=
  match s.pool.markOf p with
  | some m =>
    let m' := { m with state := st, restart := restart }
    ({ s with pool := { s.pool with marks := s.pool.marks.map fun x => if x = m then m' else x } } : State).poolJobs (s.markJobs m' 0)
  | none => { s with pool := { s.pool with marks := s.pool.marks ++
      [{ galley := p.galley, stream := p.stream, seq := p.seq, ord := p.ord, attempt := p.attempt, state := st, counted := false,
         restart := restart }] } }
def State.freeMarks (s : State) (f : PushMark → Bool) : State :=
  let gone := s.pool.marks.filter f
  let s1 := gone.foldl (fun t m => if m.counted then t.clearMark m.slot else t) s
  { s1 with pool := { s1.pool with marks := s1.pool.marks.filter fun m => !f m } }
/-- The mark of a unit that is discarded for a higher ATTEMPT goes, or falls back to what had sealed before it (R172, R177). -/
def State.lowerMark (s : State) (p : Piece) : State :=
  match s.pool.markOf p with
  | some m => match m.floor with
    | some f =>
      let m' := { m with state := .sealed, ord := f, floor := none }
      ({ s with pool := { s.pool with marks := s.pool.marks.map fun x => if x = m then m' else x } } : State).poolJobs (s.markJobs m' 0)
    | none => s.freeMarks fun x => x = m
  | none => s

/-! ## Answers (R183, R188, R306) -/

def PoolAnswer.code : PoolAnswer → Nat
  | .ok => 0
  | .refused | .full | .marks | .rebuilding => 4
  | .flushed => 5
  | .badPattern => 6
  | .noGalley => 7
def ansFrame (type dest tag cls word : Nat) (payload : List Byte) : Frame :=
  { type := type, cls := cls, vl := 2, dest := dest, tag := tag, word := word, payload := payload }
/-- The wait that a refusal at a galley brings (R183, R184, R190). -/
def PoolAnswer.wait (a : PoolAnswer) (g : Nat) : Option WaitOn :=
  match a with
  | .refused => some (.emptyPool g)
  | .full => some (.fullGalley g)
  | .marks => some (.fullMarks g)
  | .rebuilding => some (.room g)
  | _ => none
/-- A REFUSED of another node names no ground: which it is, is a free value; a seal is never refused for a full galley (R183, R184,
assumption log 73). -/
def State.remoteGround (s : State) (isSeal : Bool) : PoolAnswer :=
  match Config.refusedGround s.free % 4 with
  | 0 => if isSeal then .refused else .full
  | 1 => .refused
  | 2 => .marks
  | _ => .rebuilding
/-- The wait is one for room at a galley. -/
def WaitOn.roomAt : WaitOn → Option Nat
  | .fullGalley g => some g
  | .emptyPool g => some g
  | .fullMarks g => some g
  | .room g => some g
  | _ => none
/-- The seals of the run that stand at POOL's input, or on their way to another node. -/
def State.sealOut (s : State) (c : Nat) (r : OpRun) (d : Nat) : Bool :=
  (s.pool.seals.any fun p => p.stream.ctx = c && decide (p.serial = r.serial) && decide (p.dest = d) && p.remote.isNone) ||
    (s.pool.galleys.any fun e => e.2.sealing.any fun x => x.piece.stream.ctx = c && decide (x.piece.serial = r.serial) &&
      decide (x.piece.dest = d) && x.piece.remote.isNone) ||
    s.owners.any fun o => o = .seal c r.serial d
/-- The seals of the op that are not answered go out again. -/
def State.resendSeals (s : State) (c : Nat) : State :=
  match s.run c with
  | some r => if r.phase = .sealing then s.sendSeals c r (r.seals.filter fun d => !s.sealOut c r d) else s
  | none => s
/-- Wake a channel whose op may go on: refused segments are ready again, and refused seals are sent again (R183, R184). -/
def State.reissue (s : State) (c : Nat) : State :=
  ((s.unstall c).modRun c fun r => { r with segs := r.segs.map fun g => if g.state = .refused then { g with state := .ready } else g }).resendSeals c
/-- Room at galley g for the galley references that `pick` accepts, on grounds that `ok` accepts: the segments refused there are ready
again, and refused seals are sent again (R183, R331). -/
def State.reissueIf (s : State) (c g : Nat) (pick : Nat → Bool) (ok : WaitOn → Bool) : State :=
  let mine (w : Option WaitOn) : Bool := w.any fun x => decide (x.roomAt = some g) && ok x
  match s.run c with
  | none => if mine (s.ctx c).waitOn then s.unstall c else s
  | some r =>
    let hit (x : Segment) : Bool := x.state = .refused && (x.refusals.any fun d => pick (r.op.galleyRef d)) &&
      x.wait.all fun w => decide (w.roomAt ≠ some g) || ok w
    let seals := r.phase = .sealing && (r.seals.any fun d => pick (r.op.galleyRef d)) && mine (s.ctx c).waitOn
    if r.segs.any hit || seals then
      let t := if (s.ctx c).waitOn.any fun w => w.roomAt.isSome then s.unstall c else s
      (t.modRun c fun q => { q with segs := q.segs.map fun x => if hit x then { x with state := .ready } else x }).resendSeals c
    else s
/-- The channel waits on the ground of its first refused segment (R183, R184). -/
def State.stallRefused (s : State) (c : Nat) : State :=
  match (s.run c).bind fun r => (r.segs.find? fun g => g.state = .refused).bind (·.wait) with
  | some w => if !s.failing c && (s.ctx c).state = .running then s.stall c w else s
  | none => s
/-- The channel's op learns POOL's answer to a piece or a seal of its own (R183, R188, R202, R116, R204). -/
def State.poolHalt (s : State) (c : Nat) (r : OpRun) (off dest : Nat) (a : PoolAnswer) : State :=
  let ref := r.op.galleyRef dest
  match a with
  | .flushed => (s.modRun c fun q => { q with flushed := if q.flushed.contains dest then q.flushed else q.flushed ++ [dest] }).failOp c
      { offset := off, status := .flushed, detail := galleyNo ref }
  | .badPattern =>
    let reason := match r.op with
      | .push _ _ _ _ _ _ => 4
      | _ => 5
    s.failOp c { offset := off, status := .badPattern, detail := (badPattern reason ref).2 }
  | .noGalley => s.failOp c { offset := off, status := .badOp, detail := (match s.item c with | some it => s.opDetail it | none => 0) }
  | _ => s
/-- A piece of a segment is answered: what is stored is counted once (R204); with the last answer the segment is complete, or refused
and waits (R183). -/
def State.pieceAnswered (s : State) (c serial seg dest pieceNo rows : Nat) (a : PoolAnswer) : State :=
  match s.run c with
  | none => s
  | some r =>
    if r.serial ≠ serial then s
    else
      let wait := a.wait (galleyNo (r.op.galleyRef dest))
      let atPool (d : Option Nat) : Bool :=
        (s.pool.pieces.any fun p => p.remote.isNone && decide (p.stream.ctx = c) && decide (p.serial = serial) && decide (p.seg = seg) &&
          d.all fun x => decide (p.dest = x)) ||
        (s.owners.any fun o => match o with
          | .piece c' n' g' d' => decide (c' = c) && decide (n' = serial) && decide (g' = seg) && d.all fun x => decide (d' = x)
          | _ => false)
      let before := (r.segs.find? fun g => g.lo = seg).any fun g => g.stored.contains (dest, pieceNo)
      let s1 := s.modRun c fun q => q.modSeg seg fun g => { g with
        refusals := if wait.isSome && !g.refusals.contains dest then g.refusals ++ [dest] else g.refusals,
        wait := if g.wait.isSome then g.wait else wait,
        stored := if a = .ok ∧ !before then g.stored ++ [(dest, pieceNo)] else g.stored,
        delivered := if a = .ok ∧ !atPool (some dest) ∧ !g.refusals.contains dest ∧ !g.delivered.contains dest then g.delivered ++ [dest] else g.delivered }
      let s2 := if a = .ok ∧ !before then s1.modRun c fun q => { q with counts := Tab.put (fun _ => 0) q.counts dest (Tab.get (fun _ => 0) q.counts dest + rows) } else s1
      let s3 := s2.poolHalt c r seg dest a
      if atPool none then s3
      else (s3.modRun c fun q => q.modSeg seg fun g => { g with state := if g.refusals.isEmpty then .complete else .refused }).stallRefused c
def State.sealAnswered (s : State) (c serial dest : Nat) (a : PoolAnswer) : State :=
  match s.run c with
  | none => s
  | some r =>
    if r.serial ≠ serial then s
    else match a.wait (galleyNo (r.op.galleyRef dest)) with
      | some w => if !s.failing c && (s.ctx c).state = .running then s.stall c w else s
      | none => match a with
        | .ok =>
          let q := { r with seals := r.seals.filter (· ≠ dest) }
          (s.modRun c fun _ => q).sendSeals c q ((q.seals.filter fun d => decide (dest < d) && s.sameGalley (q.op.galleyRef d) (q.op.galleyRef dest)).take 1)
        | _ => s.poolHalt c r r.total dest a
/-- A refusal of another node's piece or seal is remembered for the ROOM notice (R331). -/
def State.remember (s : State) (n g : Nat) (a : PoolAnswer) : State :=
  match a.wait g with
  | some w => { s with pool := { s.pool with refusedBy := (s.pool.refusedBy.filter (· ≠ (n, w))) ++ [(n, w)] } }
  | none => s
/-- POOL answers a piece: a local producer's channel learns it, a remote one by PIECE_ANS (R306). -/
def State.answerPiece (s : State) (p : Piece) (a : PoolAnswer) : State :=
  match p.remote with
  | some (n, tag) => (s.sendFrame (ansFrame 0x15 n tag 0 a.code [])).remember n p.galley a
  | none => s.pieceAnswered p.stream.ctx p.serial p.seg p.dest p.pieceNo (if p.rowLen = 0 then 0 else p.data.length / p.rowLen) a
def State.answerSeal (s : State) (p : Piece) (a : PoolAnswer) : State :=
  match p.remote with
  | some (n, tag) => (s.sendFrame (ansFrame 0x17 n tag 0 a.code [])).remember n p.galley a
  | none => s.sealAnswered p.stream.ctx p.serial p.dest a

/-! ## Room (R183, R184, R331) -/

/-- The ground of a wait for room has gone; at a galley that is gone itself the wait ends too, and the op is refused. -/
def State.roomNow (s : State) (w : WaitOn) : Bool :=
  let at' (g : Nat) (ok : Galley → Bool) : Bool :=
    let y := s.galley g
    y.state ≠ .rebuilding && (y.state ≠ .active || ok y)
  match w with
  | .fullGalley g => at' g fun y => decide (y.limit = 0) || decide (y.entryCount < y.limit)
  | .emptyPool g => at' g fun _ => s.canDraw g 1
  | .fullMarks g => at' g fun _ => decide (s.pool.marksUsed < s.obj 0x7004 0)
  | .room g => at' g fun _ => true
  | _ => false
/-- POOL reports room at a galley: what waits there on a ground that has gone is issued again (R183), and nodes with refused pieces or
seals are told (R331). -/
def State.giveRoom (s : State) (g : Nat) : State :=
  let here (ref : Nat) : Bool := s.galleyLocal ref && decide (galleyNo ref = g)
  let s1 := s.ctxs.foldl (fun t e => t.reissueIf e.1 g here s.roomNow) s
  let told := s1.pool.refusedBy.filter fun e => decide (e.2.roomAt = some g) && s.roomNow e.2
  told.foldl (fun t e => t.request (.notice legacyBase) (reqFrame 0x18 e.1 0 3
      (({ galley := g, stream := { node := s.nodeNum, ctx := 0 }, seq := 0, ord := 0, attempt := 0, marked := false } : Piece).header)) 0 0 0 0)
    { s1 with pool := { s1.pool with refusedBy := s1.pool.refusedBy.filter fun e => !told.contains e } }
/-- Channels that wait for an entry of a galley try their POP again (R118). -/
def State.wakePops (s : State) (g : Nat) : State :=
  s.ctxs.foldl (fun t e => if e.2.waitOn = some (.pop g) then t.unstall e.1 else t) s

/-! ## Units -/

def OpenUnit.is (u : OpenUnit) (p : Piece) : Bool :=
  decide (u.stream = p.stream) && decide (u.seq = p.seq) && decide (u.ord = p.ord)
/-- The identity of an open unit at a galley. -/
def OpenUnit.piece (u : OpenUnit) (g : Nat) : Piece :=
  { galley := g, stream := u.stream, seq := u.seq, ord := u.ord, attempt := u.attempt, marked := false }
/-- The unit's seal is under way (R173). -/
def Galley.isSealing (y : Galley) (u : OpenUnit) : Bool := y.sealing.any fun x => u.is x.piece
/-- Discard an open unit whole: its cells return to the free list (R172, R469). -/
def State.discardUnit (s : State) (g : Nat) (u : OpenUnit) : State :=
  let y := s.galley g
  (s.setGalley g { y with units := y.units.filter (· ≠ u) }).freeAll u.cells
/-- Unit buffers in use (R170). -/
def State.buffersUsed (s : State) : Nat :=
  s.pool.galleys.foldl (fun n e => n + (e.2.units.filter fun u => !u.staged).length) 0
/-- What POOL does with a piece by the marks of its galley and stream (R172, R188, R330, R469): drop and answer, let it join the open
unit, or open a new one. A piece of a producer in FLOW is no duplicate; only the flush or the abort of its own unit meets it (R171). -/
inductive PieceAct where
  | drop (a : PoolAnswer)
  | join
  | open
  deriving DecidableEq, Repr
def State.pieceAct (s : State) (p : Piece) : PieceAct :=
  let plain : PieceAct := if (s.galley p.galley).units.any fun u => u.is p then .join else .open
  match s.pool.markOf p with
  | some m =>
    let own : PieceAct := match m.state with
      | .opened => .join
      | .sealed => .drop .ok
      | .aborted => .drop .ok
      | .flushed => if p.remote.isSome && decide (p.pieceNo = 0) && m.restart && !p.data.isEmpty then .open else .drop .flushed
    if !p.marked then (if m.state = .flushed ∨ m.state = .aborted then own else plain)
    else if m.state = .sealed ∨ p.attempt = m.attempt then own
    else if attemptAbove p.attempt m.attempt then .open
    else .drop .ok
  | none => if p.marked && s.pool.below p then .drop .ok else plain
/-- A piece with a higher ATTEMPT discards every open unit of its item, but one whose seal is under way (R172, R177). -/
def State.discardEarlier (s : State) (p : Piece) : State :=
  if p.marked then
    s.pool.galleys.foldl (fun t e =>
      (e.2.units.filter fun u => decide (u.stream = p.stream) && decide (u.seq = p.seq) && attemptAbove p.attempt u.attempt &&
          !e.2.isSealing u).foldl
        (fun w u => (w.discardUnit e.1 u).lowerMark (u.piece e.1)) t) s
  else s
/-- The writes of a staging chain that a piece changes (R157, R170): its cells hold the unit's bytes so far, with STAGING set. -/
def State.stagingWrites (s : State) (g : Nat) (u : OpenUnit) : List PoolJob :=
  let y := s.galley g
  let d := y.unitPayload 0 u.bytes
  s.chainWrites g y.packet true false u.seq u.ord u.cells ((chunks y.cellRoom d.length).map fun c => (d.drop c.1).take c.2)
/-- A piece goes into its unit (R167 to R172, R175, R177, R182, R183). -/
def State.storePiece (s : State) (p : Piece) (act : PieceAct) : State :=
  let y := s.galley p.galley
  let old := match act with
    | .join => y.units.find? fun (u : OpenUnit) => u.is p
    | _ => none
  let u : OpenUnit := old.getD { stream := p.stream, seq := p.seq, ord := p.ord, attempt := p.attempt, parts := [], staged := false,
                                 cells := [], stored := [] }
  if u.stored.contains p.pieceNo || (p.remote.isSome && decide (p.pieceNo + 63 < u.stored.foldl max 0)) then s.answerPiece p .ok
  else
    let opens := p.marked && old.isNone
    let at' := if p.rowLen = 0 then p.pieceNo else u.parts.length
    let u1 : OpenUnit := { u with parts := Tab.insert at' p.data u.parts, stored := u.stored ++ [p.pieceNo] }
    let n : Nat := u1.bytes.length
    let entries := y.entryCount + (y.entriesIn n - (if old.isNone then 0 else y.entriesIn u.bytes.length))
    let staged := u.staged || decide (992 < n) || (old.isNone && decide (2048 ≤ s.buffersUsed))
    let need := if staged then y.stagingCells n - u.cells.length else 0
    if y.limit ≠ 0 ∧ y.limit < entries then s.answerPiece p .full
    else if opens ∧ (s.pool.replaced p).isEmpty ∧ s.obj 0x7004 0 ≤ s.pool.marksUsed then (s.raise .markTableFull).answerPiece p .marks
    else if !s.canDraw p.galley need then s.answerPiece p .refused
    else
      let a := s.allocCells need
      let u2 := { u1 with staged := staged, cells := u1.cells ++ a.2 }
      let units : List OpenUnit := match old with
        | some _ => y.units.map fun (v : OpenUnit) => if v.is p then u2 else v
        | none => (y.units.filter fun (v : OpenUnit) => !v.is p) ++ [u2]
      let before := if u.staged then s.stagingWrites p.galley u else []
      let s1 := (a.1.setGalley p.galley { a.1.galley p.galley with units := units }).poolLow
      let s2 := if staged then s1.poolJobs ((s1.stagingWrites p.galley u2).filter fun j => !before.contains j) else s1
      let s3 := if opens then s2.openMark p (u2.cells.headD 0)
        else if staged && !u.staged && p.marked then
          s2.poolJobs (((s2.pool.markOf p).map fun m => s2.markJobs m (u2.cells.headD 0)).getD [])
        else if old.isNone then { s2 with pool := { s2.pool with marks := s2.pool.marks.filter fun m => m.counted || !m.same p } }
        else s2
      s3.answerPiece p .ok
/-- POOL takes in a piece (R166, R172, R188, R190, R202, R330). One of a unit whose seal is under way waits for its end. -/
def State.takePiece (st : State) (p : Piece) : State :=
  let s := st.discardEarlier p
  let y := s.galley p.galley
  match y.state with
  | .absent => s.answerPiece p .noGalley
  | .deleting => s.answerPiece p .noGalley
  | .rebuilding => s.answerPiece p .rebuilding
  | .active =>
    if y.sealing.any fun x => OpenUnit.is x.unit p then { s with pool := { s.pool with pieces := s.pool.pieces ++ [p] } }
    else match s.pieceAct p with
      | .drop a =>
        let seen := s.pool.marks.map fun m => if m.is p && m.state = .flushed && decide (p.pieceNo = 0) then { m with restart := true } else m
        ({ s with pool := { s.pool with marks := seen } } : State).answerPiece p a
      | act =>
        if !y.packet ∧ (if p.rowLen ≠ 0 then y.width ≠ p.rowLen else p.data.length % y.width ≠ 0) then s.answerPiece p .badPattern
        else s.storePiece p act

/-! ## Release, flush and loss -/

/-- The cell that follows another in a chain. -/
def succCell (l : List Nat) (k : Nat) : Option Nat := l[l.findIdx (· = k) + 1]?
/-- Cells of the chain that hold no entry and no part of the last popped entry return to the free list (R179); those that stay are
linked anew. The tail stays while a seal is to be linked behind it. -/
def State.reclaimCells (s : State) (g : Nat) : State :=
  let y := s.galley g
  let used := y.entries.flatMap (·.cells) ++ (match y.lastPopped with | some e => e.cells | none => []) ++
    (if y.sealing.isSome then y.cells.getLast?.toList else [])
  let keep := y.cells.filter fun k => used.contains k
  let drop := y.cells.filter fun k => !used.contains k
  if drop.isEmpty then s
  else
    let s1 := s.setGalley g { y with cells := keep, tailLen := if keep.getLast? = y.cells.getLast? then y.tailLen else none }
    let links := (keep.filter fun k => succCell y.cells k ≠ succCell keep k).map fun k => PoolJob.rewrite g k (succCell keep k) [] none
    (((s1.poolJobs links).syncPointers g).writeDesc g).freeAll drop
/-- Entries have left the chain: the descriptor's durable head follows (R191), and cells may return (R179). -/
def State.settleChain (s : State) (g : Nat) : State :=
  let t := s.reclaimCells g
  if (t.galley g).cells = (s.galley g).cells then t.writeDesc g else t
/-- A galley that is DELETING with nothing held reads ABSENT (R166). -/
def State.endDelete (s : State) (g : Nat) : State :=
  let y := s.galley g
  if y.state = .deleting ∧ y.held.isEmpty then (s.setGalley g {}).freeAll y.cells else s
/-- Release entries that the test accepts: they leave the galley, and their pop marks are freed (R179). -/
def State.releaseEntries (s : State) (g : Nat) (f : Entry → Bool) : State :=
  let y := s.galley g
  if !y.entries.any f then s
  else
    let s1 := (y.entries.filter f).foldl (fun t e => t.clearMark e.markSlot) s
    let z := s1.galley g
    ((s1.setGalley g { z with entries := z.entries.filter fun e => !f e }).settleChain g).endDelete g
/-- The completion of an item releases what it holds: its held entries (R179), its push marks on this device (R174),
and by RELEASE notices those on other nodes (R331). -/
def State.releaseHeld (s : State) (c seq : Nat) : State :=
  s.pool.galleys.foldl (fun t e => t.releaseEntries e.1 fun x => match x.heldBy with
    | some (c', q, _) => decide (c' = c) && decide (q = seq)
    | none => false) s
def State.releaseMarks (s : State) (t : Stream) (seq : Nat) : State :=
  s.freeMarks fun m => decide (m.stream = t) && decide (m.seq = seq)
/-- Send a NOTICE of a kind for a galley of another node (R329, R331). -/
def State.notice (s : State) (c kind ref seq ord : Nat) : State :=
  let p : Piece := { galley := galleyNo ref, stream := s.stream c, seq := seq, ord := ord, attempt := s.attempt c, marked := true }
  s.request (.notice c) (reqFrame 0x18 (galleyNode ref) (s.classOf c) kind p.header) 0 0 0 0
def State.releaseItem (s : State) (c seq : Nat) (refs : List Nat) : State :=
  let s1 := (s.releaseHeld c seq).releaseMarks (s.stream c) seq
  if s.journaled || s.adopted c then refs.eraseDups.foldl (fun t ref => t.notice c 1 ref seq 0) s1 else s1
/-- The releases of an item whose COMPLETE record has entered the ring: at once, or in TWIN once the twin point has
reached the record (R174, R287). -/
def State.releaseDurable (s : State) (c seq : Nat) (refs : List Nat) (pos : Nat) : State :=
  if s.durable pos then s.releaseItem c seq refs
  else { s with jrn := { s.jrn with releases := s.jrn.releases ++ [{ pos := pos, ctx := c, seq := seq, refs := refs }] } }
/-- Releases whose record has become durable. -/
def State.releaseWaiting (s : State) : State :=
  let ready := s.jrn.releases.filter fun r => s.durable r.pos
  ready.foldl (fun t r => t.releaseItem r.ctx r.seq r.refs)
    { s with jrn := { s.jrn with releases := s.jrn.releases.filter fun r => !s.durable r.pos } }
/-- A RELEASE notice frees the marks it names (R174, R331). -/
def State.poolRelease (s : State) (p : Piece) : State := s.freeMarks fun m => m.same p && decide (m.seq = p.seq)
/-- Discard a unit as aborted, and remember it; a unit that has sealed, or whose seal is under way, stands (R207, R469). -/
def State.poolDiscard (s : State) (p : Piece) : State :=
  let y := s.galley p.galley
  match s.pieceAct p with
  | .drop _ => s
  | _ =>
    if y.units.any fun (u : OpenUnit) => u.is p && y.isSealing u then s
    else ((y.units.filter fun u => u.is p).foldl (fun t u => t.discardUnit p.galley u) s).noteUnit p .aborted false
/-- Discard a stream's open units on a galley as aborted (R207, R469). -/
def State.abortUnits (s : State) (g : Nat) (t : Stream) (seq : Nat) : State :=
  ((s.galley g).units.filter fun u => decide (u.stream = t) && decide (u.seq = seq)).foldl (fun w u =>
    (w.discardUnit g u).noteUnit (u.piece g) .aborted false) s
/-- The item of a stream aborts: its open units are aborted units from now on (R469), but one whose seal is under way. -/
def State.markAborted (s : State) (t : Stream) (seq : Nat) : State :=
  s.pool.galleys.foldl (fun w e => (e.2.units.filter fun u => decide (u.stream = t) && decide (u.seq = seq) && !e.2.isSealing u).foldl
    (fun v u => v.noteUnit (u.piece e.1) .aborted false) w) s
/-- Discard the open units of a galley as flushed (R187, R192). -/
def State.flushUnits (s : State) (g : Nat) : State :=
  (s.galley g).units.foldl (fun t u => (t.discardUnit g u).noteUnit (u.piece g) .flushed (u.stored.contains 0)) s
/-- FLUSH of a galley (R187): poppable entries and open units go; held entries and the last popped entry stay. -/
def State.flushGalley (s : State) (g : Nat) : State :=
  let s1 := s.flushUnits g
  let z := s1.galley g
  ((s1.setGalley g { z with entries := z.held, heads := [], flushes := satAdd u32Max z.flushes 1 }).settleChain g).syncPointers g
/-- The FLUSH record of a galley as it stands (R275): UNITS counts each unit of a poppable entry, and each open unit, once. -/
def State.flushRecord (s : State) (g : Nat) : Record :=
  let y := s.galley g
  let seqs := (y.poppable.map (·.seq)) ++ y.units.map (·.seq)
  let units := y.units.length + (y.poppable.map fun e => (e.stream, e.seq, e.ord)).eraseDups.length
  { kind := .flush, galley := g, entries := y.poppable.length, units := units,
    lowSeq := seqs.foldl min maxU64, highSeq := seqs.foldl max 0 }
/-- The POP whose payload read is given up asks anew. -/
def State.popLost (s : State) (c tag : Nat) : State := s.modItem c fun i => if i.popWait = some tag then { i with popWait := none } else i
/-- The work of a galley that no longer counts: refills and payloads of POPs, and `all` of its cells' rewriting. -/
def PoolJob.idleFor (j : PoolJob) (g : Nat) (all : Bool) : Bool :=
  match j with
  | .refill h _ => decide (h = g)
  | .payload _ _ h _ _ _ _ => decide (h = g)
  | .rewrite h _ _ _ _ => all && decide (h = g)
  | .rebuilt h => all && decide (h = g)
  | _ => false
def State.dropIdle (s : State) (g : Nat) (all : Bool) : State :=
  s.pool.jobs.foldl (fun t j => match j with
    | .payload c tag h _ _ _ _ => if h = g then t.popLost c tag else t
    | _ => t) (s.dropJobs fun j => j.idleFor g all)
/-- The contents of a galley are lost (R191, R192): its producers' open units receive FLUSHED. -/
def State.loseGalley (s : State) (g : Nat) : State :=
  let s0 := (s.dropIdle g true).flushUnits g
  let y := s0.galley g
  let s1 := y.held.foldl (fun t e => t.clearMark e.markSlot) s0
  let s2 := s1.setGalley g { s1.galley g with
    state := .active, entries := [], heads := [], cells := [], tailLen := none, lastPopped := none }
  ((((s2.syncPointers g).writeDesc g).freeAll y.cells).raise .galleyLost).giveRoom g
/-- The rules of KEEP or TWIN hold, or are to hold after RECOVER. -/
def State.keeps (s : State) : Bool := s.journaled || s.ctl.mode = .recover
/-- The work of a seal that is under way is given up, from its begin, or from where it stands, to its end. -/
def dropSeal (g : Nat) : Bool → List PoolJob → List PoolJob
  | _, [] => []
  | inside, j :: r =>
    if j = .sealEnd g then r
    else if j = .sealBegin g ∨ inside then dropSeal g true r
    else j :: dropSeal g false r
/-- A seal under way at a galley that rebuilds is refused: its unit stays open, and the cells drawn for it are free again (R190,
R191). -/
def State.cancelSeal (s : State) (g : Nat) : State :=
  let y := s.galley g
  match y.sealing with
  | none => s
  | some x =>
    let l := s.pool.jobs
    let s1 : State := { s with pool := { s.pool with jobs := dropSeal g (l.contains (.sealEnd g) && !l.contains (.sealBegin g)) l } }
    ((s1.setGalley g { y with sealing := none }).freeAll x.fresh).answerSeal x.piece .rebuilding
/-- A pointer mismatch is counted and raised (R190). -/
def State.countMismatch (s : State) (g : Nat) : State :=
  let y := s.galley g
  if y.state = .absent then s
  else (s.setGalley g { y with mismatches := satAdd u16Max y.mismatches 1 }).raise .galleyPointer
/-- A pointer mismatch (R190): an active galley rebuilds; in FLOW its contents go (R192). One that is DELETING, or rebuilds already, stays
so (DESIGN CHOICE, assumption log 85). -/
def State.pointerMismatch (s : State) (g : Nat) : State :=
  let s1 := s.countMismatch g
  let y := s1.galley g
  if y.state ≠ .active then s1
  else
    let s2 := s1.setGalley g { y with state := .rebuilding, heads := [] }
    if s.keeps then (s2.dropIdle g false).cancelSeal g else s2.loseGalley g

/-! ## Seals (R168 to R170, R173, R183, R186, R206) -/

/-- What a seal does (R160, R161, R170): the cells it adds behind the chain, the entries, the payload bytes of the tail, and the
work at memory that appends the unit or links its staging chain. -/
def State.sealPlan (s : State) (g : Nat) (u : OpenUnit) (fresh : List Nat) : List Nat × List Entry × Nat × List PoolJob :=
  let y := s.galley g
  let n := u.bytes.length
  let d := y.unitPayload n u.bytes
  let tail := y.cells.getLast?
  let fit := if u.staged then (0, 0) else y.tailRoom (if y.cells.isEmpty then none else y.tailLen) d.length
  let cells := if u.staged then u.cells else fresh
  let base : Entry := { stream := u.stream, seq := u.seq, ord := u.ord }
  let entries : List Entry :=
    if y.packet then [{ base with cells := (if fit.2 = 0 then [] else tail.toList) ++ cells, offset := if fit.2 = 0 then 0 else fit.1, length := n }]
    else (List.range (n / y.width)).map fun i =>
      let o := i * y.width
      if o < fit.2 then { base with cells := tail.toList, offset := fit.1 + o, length := y.width }
      else { base with cells := [cells.getD ((o - fit.2) / y.cellRoom) 0], offset := (o - fit.2) % y.cellRoom, length := y.width }
  let pad := List.replicate (if fit.2 = 0 then 0 else fit.1 - y.tailLen.getD 0) (0 : Byte)
  let behind := d.drop fit.2
  let last := if cells.isEmpty then fit.1 + fit.2 else behind.length - (cells.length - 1) * y.cellRoom
  let own : List PoolJob :=
    if u.staged then (cells.zip (List.range cells.length)).map fun x =>
      .rewrite g x.1 (cells[x.2 + 1]?) [] (if y.packet ∧ x.2 = 0 then some n else none)
    else s.chainWrites g y.packet false (decide (0 < fit.2)) u.seq u.ord cells ((chunks y.cellRoom behind.length).map fun c => (behind.drop c.1).take c.2)
  let join : List PoolJob := match tail with
    | some t => [.rewrite g t cells.head? (pad ++ d.take fit.2) none]
    | none => []
  (cells, entries, last, own ++ join)
/-- The seal takes effect: the unit is closed and its entries are poppable (R168, R169, R173). -/
def State.finishSeal (s : State) (g : Nat) (x : Sealing) : State :=
  let y := s.galley g
  let s1 := (s.setGalley g { y with
    units := y.units.filter fun v => !v.is x.piece, entries := y.entries ++ x.entries, cells := y.cells ++ x.cells, sealing := none
    tailLen := x.tailLen, heads := y.fillHeads x.entries }).syncPointers g
  (((if x.piece.marked then s1.sealMark x.piece else s1).answerSeal x.piece .ok).wakePops g).poolRefill g
/-- POOL takes up the seal of a unit (R170, R173, R183, R186): in KEEP and TWIN it takes effect once all it writes is acknowledged, in
FLOW at once. -/
def State.startSeal (s : State) (p : Piece) (u : OpenUnit) : State :=
  let g := p.galley
  let need := if u.staged then 0 else (s.galley g).appendCells u.bytes.length
  if !s.canDraw g need then s.answerSeal p .refused
  else
    let a := s.allocCells need
    let plan := a.1.sealPlan g u a.2
    let y := a.1.galley g
    let x : Sealing := { piece := p, unit := u, entries := plan.2.1, cells := plan.1, fresh := a.2, tailLen := some plan.2.2.1 }
    let mark := match s.pool.markOf p with
      | some m => if p.marked then s.markJobs { m with state := .sealed } 0 else []
      | none => []
    if s.journaled then
      ((a.1.setGalley g { y with sealing := some x }).poolLow).poolJobs ([.sealBegin g] ++ plan.2.2.2 ++ mark ++ [.desc g true, .sealEnd g])
    else ((a.1.poolJobs (plan.2.2.2 ++ mark ++ [.desc g false])).finishSeal g x).poolLow
/-- POOL takes a seal whose unit's pieces are all stored (R166, R172, R188, R190). A seal under way at the galley, or a tail whose
length POOL is reading, comes first. -/
def State.takeSeal (s : State) (p : Piece) : State :=
  let y := s.galley p.galley
  match y.state with
  | .absent => s.answerSeal p .noGalley
  | .deleting => s.answerSeal p .noGalley
  | .rebuilding => s.answerSeal p .rebuilding
  | .active =>
    match s.pieceAct p, y.units.find? fun u => u.is p with
    | .drop a, _ => s.answerSeal p a
    | _, none => s.answerSeal p .ok
    | _, some u =>
      if y.tailA ≠ y.tailB then
        let t := s.pointerMismatch p.galley
        t.answerSeal p (if (t.galley p.galley).state = .rebuilding then .rebuilding else .flushed)
      else s.startSeal p u
/-- The seal can be taken now: no other is under way at its galley, POOL knows the tail's length, and every piece below its count is
stored (R330). -/
def State.sealable (s : State) (p : Piece) : Bool :=
  let y := s.galley p.galley
  y.state ≠ .active || (y.sealing.isNone && (y.cells.isEmpty || y.tailLen.isSome) && match s.pieceAct p, y.units.find? fun u => u.is p with
    | .drop _, _ => true
    | _, none => true
    | _, some u => (List.range p.pieceNo).all fun i => u.stored.contains i)

/-! ## The rebuild (R191) -/

/-- The rebuild takes its first step: POOL reads the galley's descriptor. -/
def State.rebuild (s : State) (g : Nat) : State :=
  let begun := s.pool.jobs.any fun j => match j with
    | .rebuild h => decide (h = g)
    | .marks h => decide (h = g)
    | .walk h _ _ => decide (h = g)
    | .rebuilt h => decide (h = g)
    | _ => false
  if begun then s else s.poolJobs [.rebuild g]
/-- HEAD_CELL and TAIL_CELL of the descriptor in memory, where its chain is not empty (R191). -/
def State.descEnds (s : State) (g : Nat) : Option Nat × Option Nat :=
  let a := s.descAddr g
  if bitOf (s.numAt (a + 0x14) 2) 0 then (some (s.numAt (a + 8) 4), some (s.numAt (a + 12) 4)) else (none, none)
/-- The galley is ACTIVE again: both copies of head and tail are set from the descriptor, the head behind what the pop marks released,
the chain's links, all of them where no walk has read them, and the descriptor follow what was released, and what waits goes on. -/
def State.endRebuild (s : State) (g : Nat) (walked : Bool) : State :=
  let y := s.galley g
  let old (k : Nat) : Option Nat := if bitOf (s.cellField k 0x12 2) 0 then none else some (s.cellField k 8 4)
  let links := (y.cells.filter fun k => !walked || succCell y.cells k ≠ old k).map fun k => PoolJob.rewrite g k (succCell y.cells k) [] none
  let ends := if walked then s.descEnds g else (none, none)
  let own (d k : Option Nat) : Option Nat := if d.any y.cells.contains then d else k
  let h := own ends.1 y.cells.head?
  let t := own ends.2 y.cells.getLast?
  let s1 := s.setGalley g { y with
    state := .active, heads := [], headA := h, headB := h, tailA := t, tailB := t
    tailLen := if walked then y.cells.getLast?.map s.cellLength else none }
  (((s1.poolJobs links).writeDesc g).poolRefill g).giveRoom g
/-- The descriptor has been read: a FLUSH record not below its JPOS is applied; else the pop marks and the chain follow. -/
def State.rebuildFrom (s : State) (g : Nat) : State :=
  let a := s.descAddr g
  let jpos := s.numAt a 8
  if s.jrn.log.any fun r => r.kind = .flush && decide (r.galley = g) && decide (jpos ≤ r.pos) then
    ((s.setGalley g { s.galley g with state := .active }).flushGalley g).endRebuild g false
  else s.poolFirst ([.marks g] ++ (match s.descEnds g with
    | (some h, some t) => [PoolJob.walk g h t]
    | _ => []) ++ [.rebuilt g])
/-- Entries whose pop mark, as the mark table in memory holds it, names an item with a completion record in the journal are released. -/
def State.releaseDone (s : State) (g : Nat) : State :=
  s.releaseEntries g fun e =>
    let m := s.markAddr e.markSlot
    e.heldBy.isSome && e.markSlot ≠ 0 && s.jrn.log.any fun r =>
      r.kind = .complete && decide (r.ctx = s.numAt (m + 0xC) 4 % 2 ^ 18) && decide (r.seq = s.numAt m 8)
/-- The walk has read a cell's header: one that fails the check is a pointer mismatch (R159), and the galley is lost. -/
def State.walkFrom (s : State) (g k tail : Nat) : State :=
  if !s.cellOk k g then (s.countMismatch g).loseGalley g
  else if k = tail then s
  else s.poolFirst [.walk g (s.cellField k 8 4) tail]

/-! ## The end of a job -/

/-- A refill has read a cell (R180, R190): references of the entries that begin in it enter the head buffer. -/
def State.refillFrom (s : State) (g k : Nat) : State :=
  let y := s.galley g
  if y.state ≠ .active then s
  else if y.headA ≠ y.headB ∨ !s.cellOk k g then s.pointerMismatch g
  else
    let new := ((y.poppable.drop y.heads.length).takeWhile fun e => e.cells.headD 0 = k).take (8 - y.heads.length)
    (s.setGalley g { y with heads := y.heads ++ new.map Entry.ref }).poolRefill g
/-- The payload of a POP has been read (R118, R180); the cells that continue a packet are checked (R159). -/
def State.payloadRead (s : State) (c tag g : Nat) (cells : List Nat) (off n : Nat) (underrun : Bool) : State :=
  if 1 < cells.length ∧ cells.any (fun k => !s.cellOk k g) then (s.pointerMismatch g).popLost c tag
  else s.modItem c fun i => if i.popWait = some tag then
      { i with popWait := none, popped := some ((s.payloadRuns cells off n).flatMap fun e => s.bytesAt e.1 e.2, underrun) }
    else i
/-- The descriptor in memory stands (R173, R191). -/
def State.descWritten (s : State) (g : Nat) : State :=
  let y := s.galley g
  let ends := s.descEnds g
  if y.state = .absent then s
  else s.setGalley g { y with jpos := s.numAt (s.descAddr g) 8, durableHead := ends.1, durableTail := ends.2 }
/-- What follows the accesses of a job. -/
def State.jobDone (s : State) (j : PoolJob) : State :=
  match j with
  | .write _ _ => s
  | .rewrite g k next add plen =>
    let y := s.galley g
    if !s.cellOk k g then s.pointerMismatch g
    else
      let t := if y.tailLen.isNone ∧ y.cells.getLast? = some k then s.setGalley g { y with tailLen := some (s.cellLength k + add.length) } else s
      t.poolFirst (s.rewriteJobs g k next add plen)
  | .sealBegin g => if (s.galley g).state = .active then s else s.cancelSeal g
  | .sealEnd g => match (s.galley g).sealing with
    | some x => (s.finishSeal g x).poolLow
    | none => s
  | .desc g _ => s.descWritten g
  | .refill g k => s.refillFrom g k
  | .payload c tag g cells off n u => s.payloadRead c tag g cells off n u
  | .rebuild g => if (s.galley g).state = .rebuilding then s.rebuildFrom g else s
  | .marks g => s.releaseDone g
  | .walk g k tail => if (s.galley g).state = .rebuilding then s.walkFrom g k tail else s
  | .rebuilt g => if (s.galley g).state = .rebuilding then s.endRebuild g true else s
  | .answer => s
/-- The first job ends, its accesses answered or none of them issued. -/
def State.poolFinish (s : State) : State :=
  match s.pool.jobs with
  | [] => s
  | j :: l => ({ s with pool := { s.pool with jobs := l, busy := false } } : State).jobDone j
/-- An access of POOL's has not been answered. -/
def State.poolOut (s : State) : Bool := s.accessFor (· = .pool)
/-- POOL goes on until an access is under way or nothing is left; while it waits itself it does not (R346, R347). The fuel bounds the
jobs ended. -/
def State.poolNext (s : State) : Nat → State
  | 0 => s
  | n + 1 =>
    if s.poolOut || s.unitWaits poolIsland then s
    else
      let s1 := (if s.pool.busy then s.poolFinish else s).poolStart
      if s1.pool.busy || s1.pool.jobs.isEmpty then s1 else State.poolNext s1.poolFinish n
def State.poolRun (s : State) : State := s.poolNext (s.pool.jobs.length + 8)
/-- The channel for whose POP POOL reads a payload, and the read's tag (R180). -/
def State.poolPop (s : State) : Option (Nat × Nat) :=
  match s.pool.jobs with
  | .payload c tag _ _ _ _ _ :: _ => if s.pool.busy then some (c, tag) else none
  | _ => none
/-- POOL's access under way is retried without limit: it reads no payload that a POP waits for. -/
def State.poolEndures (s : State) : Bool :=
  match s.pool.jobs with
  | .payload _ _ _ _ _ _ _ :: _ => false
  | .answer :: _ => false
  | _ => true
/-- The payload read of a POP has failed (R256): the POP's channel halts, and with the last answer POOL goes on. An entry that FLOW has
released to the POP stays released (R178). -/
def State.popFailed (s : State) (f : FaultRec) : State :=
  match s.poolPop with
  | none => s.poolRun
  | some (c, tag) =>
    let waits := (s.item c).any fun i => decide (i.popWait = some tag)
    let s1 := if waits then (s.popLost c tag).fail c { f with offset := s.doneOffset c } else s
    ({ s1 with pool := { s1.pool with jobs := .answer :: s1.pool.jobs.drop 1 } } : State).poolRun

end Sys2Proof.Machine
end

