-- ==== Sys2Proof/Machine/GalleyOps.lean ====
section
/-! DEFINITION. PUSH and POP (R114 to R119, R178 to R186), POOL's own steps, and the galley commands' effects (R164 to
R166). -/
namespace Sys2Proof.Machine

/-! ## PUSH -/

/-- The galley a PUSH or PART names takes no units: ABSENT or DELETING (R166). -/
def State.noGalley (s : State) (ref : Nat) : Bool :=
  s.galleyLocal ref && ((s.galley (galleyNo ref)).state = .absent || (s.galley (galleyNo ref)).state = .deleting)
/-- The PUSH is on a packet galley: as the galley stands here; for another node, as this one knows it (assumption log 21). -/
def State.pushesPacket (s : State) (ref : Nat) : Bool :=
  if s.galleyLocal ref then (s.galley (galleyNo ref)).packet else decide (Config.remoteWidth (galleyNode ref) (galleyNo ref) = 0)
/-- The item's open packet is on the galley that the reference names (R115). -/
def State.packetOn (s : State) (it : Item) (ref : Nat) : Bool := it.openPacket.any fun e => s.sameGalley e.1 ref
/-- PUSH begins (R114 to R116, R162, R163). One on an item galley leaves an open packet of the item as it stands. -/
def State.beginPush (s : State) (c : Nat) (it : Item) (b : List Byte) : State :=
  let ref := fieldAt b 4 4
  let n := fieldAt b 0x10 4
  let opn := bitOf (fieldAt b 0x14 1) 0
  let close := bitOf (fieldAt b 0x14 1) 1
  if n = 0 then s.finishOp c
  else if s.noGalley ref then s.haltBadOp c it
  else
    let packet := s.pushesPacket ref
    let w := (s.galley (galleyNo ref)).width
    if packet ∧ (if opn then it.openPacket.isSome else !s.packetOn it ref) then s.haltBadOp c it
    else if !packet ∧ s.galleyLocal ref ∧ n % w ≠ 0 then s.halt c (badPattern 4 ref)
    else if packet ∧ 0xFFFFFFFF < (if opn then 0 else it.packetBytes) + n then s.halt c (badPattern 7 ref)
    else
      let ord := match packet, opn, it.openPacket with
        | true, false, some (_, o) => o
        | _, _, _ => it.pushOrd
      let k := s.sched.nextSerial
      ({ s with sched := { s.sched with nextSerial := k + 1 } } : State).modItem c fun i =>
        let j : Item := if packet && opn then { i with packetPieces := 0, packetBytes := 0 } else i
        { j with
          openPacket := if packet then some (ref, ord) else j.openPacket
          remoteRefs := if s.galleyLocal ref || j.remoteRefs.contains ref then j.remoteRefs else j.remoteRefs ++ [ref]
          run := some { op := .push ref (fieldAt b 8 8) n opn (close || !packet) packet, serial := k, total := n, ordBase := ord } }
def State.opPush (s : State) (c : Nat) : State :=
  s.runOp c (opIs 0x16) fun it b => match it.run with
    | none => s.beginPush c it b
    | some _ => s.advanceRun c
def execPush (c : Nat) (s : State) : Host.Outcome State Fault Refusal := .next (s.opPush c)

/-! ## POP -/

def popIs (mode : Nat) (b : List Byte) : Bool :=
  opIs 0x17 b && (decide (fieldAt b 0x1C 1 = mode) || decide (1 < fieldAt b 0x1C 1))
/-- A POP's fields hold defined values (R117). -/
def State.popOk (s : State) (b : List Byte) : Bool :=
  s.galleyLocal (fieldAt b 4 4) && decide (fieldAt b 0x14 8 % 16 = 0) && decide (fieldAt b 0x1C 1 ≤ 1)
/-- The pop result (R118). -/
def popResult (len : Nat) (underrun : Bool) : List Byte := leBytes 4 len ++ leBytes 4 (boolBit underrun 0) ++ leBytes 8 0
/-- The entry that the POP's own pop mark holds (R179). -/
def State.ownEntry (s : State) (c : Nat) (it : Item) (g : Nat) : Option Entry :=
  (s.galley g).entries.find? fun e => e.heldBy = some (c, it.seq, it.popOrd)
/-- The entry a POP takes: the one its own pop mark holds (R179), else the head entry (R178). -/
def State.popEntry (s : State) (c : Nat) (it : Item) (g : Nat) : Option Entry :=
  match s.ownEntry c it g with
  | some e => some e
  | none => (s.galley g).poppable.head?
/-- DEST and RESULT are written for the POP's op (R118). -/
def State.writePop (s : State) (c : Nat) (b : List Byte) (data : List Byte) (underrun : Bool) : State :=
  let s1 := s.claim c
  let k : Carrier := { owner := .opWrite c ((s1.opSerial c).getD 0) 0, requester := schedReq, cls := s.classOf c, locked := false }
  let s2 := (s1.presentWrites k (lineSide (fieldAt b 8 8) data.length) 0 data).presentWrites k (lineSide (fieldAt b 0x14 8) 16) 0
    (popResult data.length underrun)
  ((s2.credit c data.length (decide (0 < data.length))).modItem c fun i => { i with
    popOrd := i.popOrd + 1, popped := some (data, underrun) }).finishOp c
/-- What stands in the way of a POP's writes. -/
def State.popObstacle (s : State) (c : Nat) (b : List Byte) (n : Nat) : Option Obstacle :=
  match s.obstacle (s.ctx c).f.windowSet true (lineSide (fieldAt b 8 8) n) 1 0 n with
  | some o => some o
  | none => s.obstacle (s.ctx c).f.windowSet true (lineSide (fieldAt b 0x14 8) 16) 1 0 16
/-- Take an entry: released in FLOW, held under a pop mark in KEEP and TWIN (R178); its reference leaves the head buffer (R180). -/
def State.takeEntry (s : State) (c : Nat) (it : Item) (g : Nat) (e : Entry) : State :=
  let y := s.galley g
  let hold : Option (Nat × Nat × Nat) := some (c, it.seq, it.popOrd)
  if e.heldBy = hold then s
  else if s.journaled then
    let slot := s.pool.freeSlot
    let e' := { e with heldBy := hold, markSlot := slot }
    let s1 := s.setGalley g { y with
      entries := y.entries.map (fun x => if x = e then e' else x), heads := y.heads.drop 1, lastPopped := some e' }
    ((s1.poolJobs [.write (s1.markAddr slot) (markBytes it.seq g 2 (s1.stream c).word 0 it.popOrd 0
      (e.cells.headD 0 + e.offset * 2 ^ 32))]).reclaimCells g).poolRefill g
  else ((s.setGalley g { y with entries := y.entries.erase e, heads := y.heads.drop 1, lastPopped := some e }).settleChain g).poolRefill g
/-- POOL is to read an entry's payload for the POP (R180), the op's first access (R110): of a packet the bytes behind its header. -/
def State.askPayload (s : State) (c g : Nat) (e : Entry) (underrun : Bool) : State :=
  let s1 := s.claim c
  let tag := s1.sched.nextSerial
  let skip := if (s.galley g).packet then 8 else 0
  ((({ s1 with sched := { s1.sched with nextSerial := tag + 1 } } : State).modItem c fun i => { i with popWait := some tag }).poolJobs
    [.payload c tag g e.cells (e.offset + skip) e.length underrun]).poolRun
/-- POP (R117, R118, R175, R178, R180, R181, R190): it takes an entry, POOL reads the payload, and DEST and RESULT are written. -/
def State.pop (s : State) (c : Nat) (it : Item) (b : List Byte) (waits : Bool) : State :=
  let g := galleyNo (fieldAt b 4 4)
  let y := s.galley g
  let maxLen := fieldAt b 0x10 4
  if !s.popOk b then s.haltBadOp c it
  else if maxLen = 0 then (s.modItem c fun i => { i with popOrd := i.popOrd + 1 }).finishOp c
  else if s.held c || it.popWait.isSome then s
  else if it.popped.isSome then
    match it.popped with
    | some (d, u) => (match s.popObstacle c b d.length with
      | some o => s.meet c o
      | none => s.writePop c b d u)
    | none => s
  else match y.state with
    | .absent => s.haltBadOp c it
    | .deleting => s.haltBadOp c it
    | .rebuilding => s.stall c (.room g)
    | .active =>
      if y.headA ≠ y.headB then
        let t := s.pointerMismatch g
        if (t.galley g).state = .rebuilding then t.stall c (.room g) else t
      else match s.popEntry c it g with
        | some e =>
          if s.journaled ∧ e.heldBy.isNone ∧ s.obj 0x7004 0 ≤ s.pool.marksUsed then (s.raise .markTableFull).stall c (.fullMarks g)
          else if maxLen < e.length then s.halt c (badPattern 6 e.length)
          else if e.heldBy.isNone ∧ y.heads.isEmpty then (s.poolRefill g).poolRun
          else match s.popObstacle c b e.length with
            | some o => s.meet c o
            | none => (s.takeEntry c it g e).askPayload c g e false
        | none =>
          if waits then s.stall c (.pop g)
          else
            let n := (y.lastPopped.map (·.length)).getD 0
            if maxLen < n then s.halt c (badPattern 6 n)
            else match s.popObstacle c b n with
              | some o => s.meet c o
              | none =>
                let t := s.setGalley g { y with underruns := satAdd u32Max y.underruns 1 }
                match y.lastPopped with
                | some e => t.askPayload c g e true
                | none => t.writePop c b [] true
def execPopReturn (c : Nat) (s : State) : Host.Outcome State Fault Refusal :=
  .next (s.runOp c (popIs 0) fun it b => s.pop c it b false)
def execPopWait (c : Nat) (s : State) : Host.Outcome State Fault Refusal :=
  .next (s.runOp c (popIs 1) fun it b => s.pop c it b true)
/-- The timeout of a waiting POP expires (R118). -/
def State.popExpires (s : State) (c : Nat) : State :=
  match (s.ctx c).waitOn, s.item c with
  | some (.pop g), some it => if fieldAt (s.opBytes it) 0x1D 3 = 0 then s else (s.unstall c).halt c (.waitTimeout, g)
  | _, _ => s
def execPopTimeout (c : Nat) (s : State) : Host.Outcome State Fault Refusal := .next (s.popExpires c)

/-! ## POOL's steps -/

def State.poolPiece (s : State) (i : Nat) : State :=
  if s.unitWaits poolIsland then s
  else match s.pool.pieces[i]? with
  | some p => (({ s with pool := { s.pool with pieces := s.pool.pieces.eraseIdx i } } : State).takePiece p).poolRun
  | none => s.poolRun
def execPoolPiece (which : Nat) (s : State) : Host.Outcome State Fault Refusal := .next (s.poolPiece which)
/-- POOL serves a galley's seals in the order of their arrival (R206): at the galley of seal i, the first that can be taken. -/
def State.poolSeal (s : State) (i : Nat) : State :=
  if s.unitWaits poolIsland then s
  else match s.pool.seals[i]? with
  | some q =>
    let k := s.pool.seals.findIdx fun p => decide (p.galley = q.galley) && s.sealable p
    (match s.pool.seals[k]? with
     | some p => (({ s with pool := { s.pool with seals := s.pool.seals.eraseIdx k } } : State).takeSeal p).poolRun
     | none => s.poolRun)
  | none => s.poolRun
def execPoolSeal (which : Nat) (s : State) : Host.Outcome State Fault Refusal := .next (s.poolSeal which)
def State.galleyRebuild (s : State) (g : Nat) : State :=
  if (s.galley g).state = .rebuilding ∧ s.journaled then (s.rebuild g).poolRun else s.poolRun
def execGalleyRebuild (galley : Nat) (s : State) : Host.Outcome State Fault Refusal := .next (s.galleyRebuild galley)
/-- A channel's wait on an empty pool or a full mark table reaches POOL_WAIT (R184). -/
def State.poolWaitExpiry (s : State) (c : Nat) : State :=
  let expire (g : Nat) : State := if s.obj 0x7005 0 = 0 then s else (s.unstall c).halt c (.poolEmpty, g)
  match (s.ctx c).waitOn with
  | some (.emptyPool g) => expire g
  | some (.fullMarks g) => expire g
  | _ => s
def execPoolWaitExpiry (c : Nat) (s : State) : Host.Outcome State Fault Refusal := .next (s.poolWaitExpiry c)
def execRoom (galley : Nat) (s : State) : Host.Outcome State Fault Refusal :=
  .next (s.giveRoom galley).poolRun

/-! ## Galley commands (R164 to R166, R189) -/

/-- The result of an object's own act: done, refused with an abort code (with nothing changed, or in a state the act leaves,
R384, R402), or held until it can answer (R270, R383). `later` is done but for what comes with the response: an RW value (index,
subindex, value) that comes into force (R381), and what follows it. -/
inductive Reply where
  | ok (s : State)
  | later (s : State) (due : Option (Nat × Nat × Nat)) (after : After)
  | refuse (code : Nat)
  | refuseIn (s : State) (code : Nat)
  | hold (s : State)
  deriving Repr

def abortRange : Nat := 0x40000002
def abortState : Nat := 0x50000001
/-- Galley commands are accepted in CONFIG, FLOW, KEEP, TWIN and DRAIN (R164). -/
def Mode.galleyMode (m : Mode) : Bool := m = .config || m.traffic || m = .drain
def State.galleyCreate (s : State) (g : Nat) : Reply :=
  let y := s.galley g
  let packet := s.obj 0x7011 1 = 1
  let w := s.obj 0x7011 2
  let reserve := s.obj 0x7011 3
  if !s.ctl.mode.galleyMode then .refuse abortState
  else if 1 < s.obj 0x7011 1 ∨ (!packet ∧ (w < 8 ∨ 992 < w)) then .refuse abortRange
  else if y.state ≠ .absent ∨ s.poolCells = 0 ∨ s.sharedFree < reserve then .refuse abortState
  else .ok (((s.setGalley g { state := .active, packet := packet, width := if packet then 0 else w, reserve := reserve,
                              limit := s.obj 0x7011 4, jpos := s.jrn.head }).poolLow).writeDesc g)
/-- A FLUSH or DELETE in KEEP and TWIN answers once its record has entered the ring of this device, in TWIN as well (R189; DESIGN
CHOICE: R164's 'durable' is not the twin point, assumption log 85). POOL takes it when no seal is under way at the galley. -/
def State.flushThen (s : State) (g : Nat) (after : State → State) : Reply :=
  if (s.galley g).sealing.isSome then .hold s
  else if s.journaled then
    match s.ctl.holdPos with
    | some p => if s.inRing p then .ok { s with ctl := { s.ctl with holdPos := none } } else .hold s
    | none =>
      if admits s .flush then
        .hold (after ((s.writeRecord (s.flushRecord g)).flushGalley g) |> fun t => { t with ctl := { t.ctl with holdPos := some s.jrn.head } })
      else .hold (s.journalFull .flush)
  else .ok (after (s.flushGalley g))
def State.galleyFlush (s : State) (g : Nat) : Reply :=
  let y := s.galley g
  if s.ctl.holdPos.isSome then s.flushThen g id
  else if !s.ctl.mode.galleyMode ∨ y.state = .absent ∨ y.state = .rebuilding then .refuse abortState
  else s.flushThen g id
/-- DELETE flushes the galley, frees its marks, and reads DELETING until nothing is held (R166). Its reservation ends with the command
(DESIGN CHOICE: R166 does not say when, assumption log 85). -/
def State.dropGalley (s : State) (g : Nat) : State :=
  let s1 := s.freeMarks fun m => decide (m.galley = g)
  let y := s1.galley g
  ((s1.setGalley g { y with state := .deleting, reserve := 0 }).poolLow).endDelete g
def State.galleyDelete (s : State) (g : Nat) : Reply :=
  let y := s.galley g
  if s.ctl.holdPos.isSome then s.flushThen g id
  else if !s.ctl.mode.galleyMode ∨ y.state = .absent then .refuse abortState
  else s.flushThen g fun t => t.dropGalley g

end Sys2Proof.Machine
end

