-- ==== Sys2Proof/Machine/Issue.lean ====
section
/-! DEFINITION. The issue of bursts (R218 to R222, R233): which channel's burst SCHED hands to a lane in a cycle, segments and
counter updates alike. -/
namespace Sys2Proof.Machine

/-- A burst that a channel has ready (R218, R233): a segment of its run, the op's result block, or a counter update. -/
inductive NextBurst where
  | segment (r : OpRun) (g : Segment)
  | result (r : OpRun) (a : Nat)
  | counter (k : CounterOp)
  deriving DecidableEq, Repr
/-- The burst runs under a quoin lock (R233). -/
def NextBurst.locked : NextBurst → Bool
  | .segment r _ => r.op.locked
  | .result _ _ => false
  | .counter _ => true
/-- Lanes that the burst may not take: those of the other segments of its op (R131). -/
def NextBurst.taken : NextBurst → List Nat
  | .segment r _ => r.lanesHeld
  | .result _ _ => []
  | .counter _ => []
/-- SCHED works for the channel: it runs and its context is in the cache (R17), and SCHED waits for nothing itself (R346, R347). -/
def State.mayIssue (s : State) (c : Nat) : Bool :=
  !s.unitWaits schedIsland &&
    (if legacyBase ≤ c then (s.slot (c - legacyBase)).stalled.isNone && !s.failing c
     else (s.ctx c).cached && (s.ctx c).state = .running && !(s.ctx c).halting)
/-- A halting channel still has the elements written that lie before its first fault (R150): their segments that are to be issued
again. -/
def State.owedSegment (s : State) (c : Nat) : Option NextBurst :=
  match s.run c with
  | some r =>
    let early (g : Segment) : Bool := (s.faultsOf c).all fun f => decide (r.op.element g.lo < r.op.element f.offset)
    if !s.unitWaits schedIsland && r.op.list.isSome && (s.ctx c).cached && (s.ctx c).halting && decide ((s.ctx c).state ≠ .aborting) then
      (r.segs.find? fun g => r.mayReissue g && early g).map (.segment r)
    else none
  | none => none
/-- The channel's next burst. -/
def State.nextBurst (s : State) (c : Nat) : Option NextBurst :=
  if !s.mayIssue c then s.owedSegment c
  else match (s.item c).bind (·.counterOp), s.run c with
    | some k, _ => if k.value ≠ 0 ∧ !k.issued then some (.counter k) else none
    | none, some r => (match r.phase, r.op.result with
      | .result, some a => some (.result r a)
      | _, _ => (s.nextSegment r).map (.segment r))
    | none, none => none
/-- The value NEXT of a channel and its SHARE (R222). -/
def State.leading (s : State) (c : Nat) : Nat × Nat :=
  if legacyBase ≤ c then ((s.slot (c - legacyBase)).next256, bitsOf (s.slot (c - legacyBase)).workCtrl 24 8) else ((s.ctx c).next256, (s.ctx c).f.share)
/-- Leading permits an issue in cycle t (R222). -/
def State.leads (s : State) (t c : Nat) : Bool := (s.leading c).2 = 0 || decide ((s.leading c).1 ≤ t * 256)
/-- The channel has a burst ready that R220 considers: no RULE holds it (R110), leading permits cycle t (R222), and a lane can
take it. -/
def State.burstReady (s : State) (t c : Nat) : Bool :=
  match s.nextBurst c with
  | some b => !s.held c && s.leads t c && (s.pickLane b.locked b.taken).isSome
  | none => false
/-- The channel SCHED takes: the highest class, and within it the next after the one of its last turn (R220;
assumption log 8). -/
def State.pickChannel (s : State) (t : Nat) : Option Nat :=
  let ready := s.channels.filter (s.burstReady t)
  let best := ready.foldl (fun m c => min m (s.classOf c)) 8
  let mine := ready.filter fun c => s.classOf c = best
  let last := Tab.get (fun _ => 0) s.sched.rotation best
  match mine.find? fun c => decide (last < c + 1) with
  | some c => some c
  | none => mine.head?
/-- NEXT rises at the issue of a burst of b beats in cycle t (R222); the quotient is rounded down to whole units of 1/256 cycle
(DESIGN CHOICE, assumption log 96). -/
def State.charge (s : State) (t c b : Nat) : State :=
  let next256 := max (s.leading c).1 (t * 256) + b * 256 * 256 / (s.leading c).2
  if (s.leading c).2 = 0 then s
  else if legacyBase ≤ c then s.setSlot (c - legacyBase) { s.slot (c - legacyBase) with next256 := next256 }
  else s.modCtx c fun x => { x with next256 := next256 }
/-- A segment goes to a lane: what stands in its way is met, else its reads are presented from its first beat. -/
def State.issueSegment (s : State) (t c : Nat) (r : OpRun) (g : Segment) (lane : Nat) : State :=
  let place (q : OpRun) : OpRun :=
    if q.segs.any fun x => x.lo = g.lo then q
    else { q with segs := q.segs ++ [g], cut := g.hi }
  let s1 := s.modRun c place
  match s1.segObstacle (s1.setOf c) r.op g.lo g.hi with
  | some o => s1.meet c o
  | none =>
    let g' := { g with lane := lane }
    let next : SegState := if r.op.reads.isEmpty then .read else .reading
    let s2 := s1.modRun c fun q =>
      { (q.modSeg g.lo (fun x => { x with lane := lane, state := next, wrote := 0, stop := none })).forget g.lo g.hi with
        lanes := if q.lanes.contains lane then q.lanes else q.lanes ++ [lane] }
    let s3 := if legacyBase ≤ c then s2 else s2.modItem c fun it => { it with opSerial := some r.serial }
    ((s3.wakeFor r.op g.lo g.hi).issueReads (s3.carrier c r g' false) r.op g.lo g.hi).charge t c (segBeats r.op g.lo g.hi)
/-- A lane writes the result block as one write sequence under the op's checks (R138, R205, R218, R397): a burst of the channel
like any other (R220, R222). -/
def State.issueResult (s : State) (t c : Nat) (r : OpRun) (a lane : Nat) : State :=
  let bytes := r.resultBytes
  let side := lineSide a bytes.length
  match s.obstacle (s.setOf c) true side 1 0 bytes.length with
  | some (.fault f) => s.failOp c { f with offset := r.total }
  | some (.wait (.domain p x _)) => s.stallOp c (.domain p x r.total)
  | some (.wait (.route n _)) => s.stallOp c (.route n r.total)
  | some (.wait w) => s.stallOp c w
  | none =>
    let s1 := s.modRun c fun q => { q with lanes := if q.lanes.contains lane then q.lanes else q.lanes ++ [lane] }
    let s2 := (s1.modItem c fun it => { it with opSerial := some r.serial }).presentWrites
      { owner := .result c r.serial, requester := laneReq lane, cls := s.classOf c, locked := false } side 0 bytes
    (s2.concludeOp c r).charge t c (sideBeats side bytes.length 0).length
/-- SCHED hands the channel's next burst to a lane in cycle t. -/
def State.issue (s : State) (t c lane : Nat) (b : NextBurst) : State :=
  match b with
  | .segment r g => s.issueSegment t c r g lane
  | .result r a => s.issueResult t c r a lane
  | .counter k =>
    let s1 := s.readCounter c { k with lane := lane, issued := true } (laneReq lane) true
    if (s1.item c).any fun it => it.counterOp.any (·.issued) then s1.charge t c 1 else s1
/-- A burst is ready and every mover island is gated: SCHED_LANE_DEMAND (R354). -/
def State.demand (s : State) (t : Nat) : State :=
  let gated := (List.range 13).all fun m => (s.island (moverIsland m)).gated
  let ready := s.channels.any fun c => (s.nextBurst c).isSome && !s.held c && s.leads t c
  { s with sched := { s.sched with laneDemand := gated && ready } }
def State.burstIssue (s : State) (t : Nat) : State :=
  match s.pickChannel t with
  | none => s.demand t
  | some c =>
    match s.nextBurst c with
    | some b => match s.pickLane b.locked b.taken with
      | some lane =>
        let rot := { s.sched with rotation := Tab.insert (s.classOf c) (c + 1) s.sched.rotation }
        ({ s with sched := rot } : State).issue t c lane b
      | none => s
    | none => s
def execBurstIssue (cycle : Nat) (s : State) : Host.Outcome State Fault Refusal := .next (s.burstIssue cycle)

end Sys2Proof.Machine
end

