-- ==== Sys2Proof/Machine/Steer.lean ====
section
/-! DEFINITION. The steering ops: NOP, END, LOOP, ENDLOOP, LINK, WAIT, SIGNAL, RULE (R89 to R113), counter updates, and
the end of an op (R88, R241). -/
namespace Sys2Proof.Machine

def execNop (c : Nat) (s : State) : Host.Outcome State Fault Refusal :=
  .next (s.runOp c (opIs 0x00) fun _ _ => s.finishOp c)

/-- END (R90). -/
def State.opEnd (s : State) (c : Nat) (it : Item) : State :=
  if !it.loops.isEmpty || it.openPacket.isSome then s.haltBadOp c it else s.finishOp c
def execEndOp (c : Nat) (s : State) : Host.Outcome State Fault Refusal :=
  .next (s.runOp c (opIs 0x1F) fun it _ => s.opEnd c it)

/-! ## LOOP and ENDLOOP -/

/-- The scan of a skipped body (R94): from op i at a depth of open loops, the op after the matching ENDLOOP, or the op
that halts, with the depth there, its status and DETAIL. -/
def State.skipScan (s : State) (c : Nat) (it : Item) (nest : Nat) : Nat → Nat → Nat → Except (Nat × Nat × Status × Nat) Nat
  | 0, i, d => .error (i, d, .badOp, (Config.implicitEndDetail s.free).toNat)
  | n + 1, i, depth =>
    let a := it.blockAddr + 0x40 + 0x20 * i
    let b := s.bytesAt (localOf a) 32
    match s.firstDenied (s.ctx c).f.windowSet rightRead a 32 with
    | some d => .error (i, depth, .protection, d)
    | none =>
      if !opcodeKnown (opcodeOf b) || opIs 0x15 b || (opIs 0x10 b && decide (3 ≤ nest + depth)) then .error (i, depth, .badOp, fieldAt b 0 8)
      else if opIs 0x10 b then State.skipScan s c it nest n (i + 1) (depth + 1)
      else if opIs 0x11 b then if depth ≤ 1 then .ok (i + 1) else State.skipScan s c it nest n (i + 1) (depth - 1)
      else State.skipScan s c it nest n (i + 1) depth
/-- LOOP (R91, R92, R94). A skip that a fault of a skipped op has stopped goes on there at RESUME: the op in progress is the LOOP
again. -/
def State.opLoop (s : State) (c : Nat) (it : Item) (b : List Byte) : State :=
  if 3 ≤ it.loops.length then s.haltBadOp c it
  else if fieldAt b 4 4 = 0 then
    let first : Nat × Nat := match it.skipAt with
      | some (_, i, d) => (i, d)
      | none => (it.opIdx + 1, 1)
    match s.skipScan c it it.loops.length (it.opCount - first.1) first.1 first.2 with
    | .ok i => (s.modItem c fun x => { x with nextIdx := some i, skipAt := none }).finishOp c
    | .error (i, depth, st, d) => (s.nextFree.modItem c fun x => { x with opIdx := i, skipAt := some (it.opIdx, i, depth) }).halt c (st, d)
  else
    (s.modItem c fun x => { x with loops := x.loops ++
      [{ opIdx := it.opIdx, count := fieldAt b 4 4, pass := 0, srcAdv := signedOf 48 (fieldAt b 8 6),
         dstAdv := signedOf 48 (fieldAt b 0xE 6) }] }).finishOp c
def execLoop (c : Nat) (s : State) : Host.Outcome State Fault Refusal :=
  .next (s.runOp c (opIs 0x10) fun it b => s.opLoop c it b)
/-- ENDLOOP (R92, R94): the next pass, or the loop's end with its signals. -/
def State.opEndloop (s : State) (c : Nat) (it : Item) : State :=
  match it.loops.getLast? with
  | none => s.haltBadOp c it
  | some l =>
    if l.pass + 1 < l.count then
      (s.modItem c fun x => { x with loops := x.loops.dropLast ++ [{ l with pass := l.pass + 1 }], quiet := true,
                                     nextIdx := some (l.opIdx + 1) }).finishOp c
    else (s.modItem c fun x => { x with loops := x.loops.dropLast }).finishOp c
def execEndloop (c : Nat) (s : State) : Host.Outcome State Fault Refusal :=
  .next (s.runOp c (opIs 0x11) fun it _ => s.opEndloop c it)

/-! ## LINK -/

def State.fuseLimit (s : State) : Nat := if s.obj 0x4011 0 = 0 then 256 else s.obj 0x4011 0
/-- LINK (R92, R95, R96): a TARGET that is misaligned or remote is found first, then the fuse, then the windows (DESIGN
CHOICE: R95 and R96 give no order, assumption log 78). -/
def State.opLink (s : State) (c : Nat) (it : Item) (b : List Byte) : State :=
  let a := fieldAt b 8 8
  if !it.loops.isEmpty ∨ a % 64 ≠ 0 ∨ s.isRemote a then s.haltBadOp c it
  else if s.fuseLimit ≤ (s.ctx c).fuse + 1 then s.halt c (.linkLoop, a)
  else match s.firstDenied (s.ctx c).f.windowSet rightRead a 64 with
    | some d => s.fail c { status := .protection, detail := d, cause := 5, address := d }
    | none =>
      ((s.modCtx c fun x => { x with fuse := x.fuse + 1 }).modItem c fun x => { x with nextBlock := some a }).finishOp c
def execLink (c : Nat) (s : State) : Host.Outcome State Fault Refusal :=
  .next (s.runOp c (opIs 0x15) fun it b => s.opLink c it b)

/-! ## WAIT -/

/-- The group an op names, or the context's own (R99, R104). -/
def State.groupOf (s : State) (c : Nat) (other : Bool) (g : Nat) : Nat := if other then g else (s.ctx c).f.group
/-- WAIT (R99, R100): the counter read, then the test of the value read and of every increment since (R103). -/
def State.opWait (s : State) (c : Nat) (it : Item) (b : List Byte) : State :=
  let cond := fieldAt b 6 1
  let g := s.groupOf c (bitOf cond 7) (fieldAt b 0x14 2)
  if 1 < bitsOf cond 0 2 ∨ (bitOf cond 7 ∧ 4095 < fieldAt b 0x14 2) then s.haltBadOp c it
  else match it.counterOp with
    | none => if s.held c then s
        else s.readCounter c { group := g, counter := fieldAt b 4 2, value := 0 } schedReq false
    | some k =>
      match k.old with
      | none => s
      | some v =>
        let s1 := s.modItem c fun i => { i with counterOp := none }
        let last := (k.news.getLast?).getD v
        if (v :: k.news).any (waitHolds (bitsOf cond 0 2) (fieldAt b 8 8)) then (s1.modCtx c fun x => { x with fuse := 0 }).finishOp c
        else s1.stall c (.counter g (fieldAt b 4 2) (fieldAt b 8 8) (bitsOf cond 0 2) last)
def execWait (c : Nat) (s : State) : Host.Outcome State Fault Refusal :=
  .next (s.runOp c (opIs 0x12) fun it b => s.opWait c it b)
/-- The timeout of a waiting WAIT expires (R100). -/
def State.waitExpires (s : State) (c : Nat) : State :=
  match (s.ctx c).waitOn, s.item c with
  | some (.counter _ _ _ _ last), some it =>
    if fieldAt (s.opBytes it) 0x10 4 = 0 then s else (s.unstall c).halt c (.waitTimeout, last)
  | _, _ => s
def execWaitTimeout (c : Nat) (s : State) : Host.Outcome State Fault Refusal := .next (s.waitExpires c)

/-! ## SIGNAL -/

/-- The op is the SIGNAL of a KIND; an undefined KIND is found by each of the three commands (R104). -/
def signalIs (k : Nat) (b : List Byte) : Bool := opIs 0x13 b && (decide (fieldAt b 4 1 = k) || decide (2 < fieldAt b 4 1))
/-- A SIGNAL's fields hold defined values (R104). -/
def signalOk (b : List Byte) : Bool :=
  (!bitOf (fieldAt b 5 1) 0 || decide (fieldAt b 0x18 2 ≤ 4095)) &&
  match fieldAt b 4 1 with
  | 0 => true
  | 1 => decide (fieldAt b 0x1A 1 ≤ 15)
  | 2 => decide (fieldAt b 0x10 8 % 16 = 0)
  | _ => false
/-- A SIGNAL waits as a STREAM RULE before it takes effect (R105). -/
def State.opSignal (s : State) (c k : Nat) (f : Item → List Byte → State) : State :=
  s.runOp c (signalIs k) fun it b =>
    if !signalOk b then s.haltBadOp c it
    else if !s.streamAcked c || s.held c then s
    else f it b
/-- COUNTER_ADD (R106). -/
def State.signalAdd (s : State) (c : Nat) (it : Item) (b : List Byte) : State :=
  if fieldAt b 8 8 = 0 then s.finishOp c
  else if it.counterOp.isSome then s
  else s.beginCounter c it (s.groupOf c (bitOf (fieldAt b 5 1) 0) (fieldAt b 0x18 2)) (fieldAt b 6 2) (fieldAt b 8 8) false
    fun t => t.finishOp c
def execSignalCounterAdd (c : Nat) (s : State) : Host.Outcome State Fault Refusal :=
  .next (s.opSignal c 0 fun it b => s.signalAdd c it b)
/-- EVENT (R108, R346): the post goes out once SCHED may hold another event for the wire. -/
def execSignalEvent (c : Nat) (s : State) : Host.Outcome State Fault Refusal :=
  .next (s.opSignal c 1 fun _ b =>
    if s.postFull schedIsland (fieldAt b 0x1A 1) then s else (s.post schedIsland (fieldAt b 0x1A 1)).finishOp c)
/-- STATUS_WORD (R107): written now in FLOW, deferred to the item's end in KEEP and TWIN. -/
def statusWordBytes (value seq : Nat) : List Byte := leBytes 8 value ++ leBytes 8 seq
def State.signalWord (s : State) (c : Nat) (it : Item) (b : List Byte) : State :=
  let a := fieldAt b 0x10 8
  if it.opSerial.isSome then s
  else if s.journaled then
    match s.firstDenied (s.ctx c).f.windowSet rightWrite a 16 with
    | some d => s.fail c { status := .protection, detail := d, cause := 5, address := d }
    | none => (s.modItem c fun i => { i with words := i.words ++ [{ address := a, value := fieldAt b 8 8 }] }).finishOp c
  else match s.obstacle (s.ctx c).f.windowSet true (lineSide a 16) 1 0 16 with
    | some o => s.meet c o
    | none =>
      let s1 := s.claim c
      (s1.presentWrites { owner := .opWrite c ((s1.opSerial c).getD 0) 0, requester := schedReq, cls := s.classOf c, locked := false }
        (lineSide a 16) 0 (statusWordBytes (fieldAt b 8 8) it.seq)).finishOp c
def execSignalStatusWord (c : Nat) (s : State) : Host.Outcome State Fault Refusal :=
  .next (s.opSignal c 2 fun it b => s.signalWord c it b)
def execCounterUpdate (c : Nat) (s : State) : Host.Outcome State Fault Refusal := .next (s.counterUpdate c)

/-! ## RULE -/

def ruleIs (k : Nat) (b : List Byte) : Bool := opIs 0x14 b && (decide (fieldAt b 4 1 = k) || decide (3 < fieldAt b 4 1))
/-- A RULE's fields hold defined values (R109). -/
def ruleOk (b : List Byte) : Bool :=
  decide (fieldAt b 4 1 ≤ 3) && (decide (fieldAt b 4 1 ≠ 1) || decide (fieldAt b 6 2 ≤ 4095) || decide (fieldAt b 6 2 = 65535))
/-- The nodes of an active node set other than this one (R109, R112, R332). -/
def State.setNodes (s : State) (k : Nat) : List Nat :=
  let bits := Tab.get (fun _ => []) s.dict.nodeSets k
  (List.range 4096).filter fun n => bitOf (bits.getD (n / 8) 0).toNat (n % 8) && decide (s.fab.nodeId ≠ some n)
/-- A RULE whose earlier ops are acknowledged and whose nodes have answered completes (R110, R112). -/
def State.ruleDone (s : State) (r : RuleRec) : Bool := r.nodes.isEmpty && r.earlier.all fun e => !s.opUnacked e
def State.finishRule (s : State) (c : Nat) : State :=
  match s.sched.rules.find? fun r => r.ctx = c with
  | some r => if s.ruleDone r then
      ({ s with sched := { s.sched with rules := s.sched.rules.filter fun q => q.ctx ≠ c } } : State).finishOp c
    else s
  | none => s
/-- The RULE of a channel is given up: its record goes, and its markers are forgotten (R112, R253). -/
def State.ruleLost (s : State) (c : Nat) : State :=
  { s with
    sched := { s.sched with rules := s.sched.rules.filter fun r => r.ctx ≠ c }
    fab := { s.fab with remotes := s.fab.remotes.filter fun r => match r.owner with
      | .ruleMark c' _ => decide (c' ≠ c)
      | _ => true } }
/-- RULE of a scope (R109 to R112): it begins, marks the nodes of a FABRIC set, and completes when nothing is left. -/
def State.opRule (s : State) (c k : Nat) : State :=
  s.runOp c (ruleIs k) fun it b =>
    if !ruleOk b then s.haltBadOp c it
    else if s.sched.rules.any fun r => r.ctx = c then s.finishRule c
    else
      let g := if fieldAt b 6 2 = 65535 then (s.ctx c).f.group else fieldAt b 6 2
      let nodes := if k = 3 then s.setNodes (fieldAt b 8 1) else []
      let r : RuleRec := { ctx := c, serial := 0, scope := k, group := g, nodes := nodes,
                           earlier := s.earlierOps fun d => d = c || s.inScope k g c d }
      let s1 : State := { s with sched := { s.sched with rules := s.sched.rules ++ [r] } }
      (nodes.foldl (fun t n => t.request (.ruleMark c n) (reqFrame 0x1A n (s.classOf c) 0 []) 0 0 0 0) s1).finishRule c
def execRuleStream (c : Nat) (s : State) : Host.Outcome State Fault Refusal := .next (s.opRule c 0)
def execRuleGroup (c : Nat) (s : State) : Host.Outcome State Fault Refusal := .next (s.opRule c 1)
def execRuleDevice (c : Nat) (s : State) : Host.Outcome State Fault Refusal := .next (s.opRule c 2)
def execRuleFabric (c : Nat) (s : State) : Host.Outcome State Fault Refusal := .next (s.opRule c 3)

/-! ## OP_COMPLETE -/

/-- The op's own signals and the move to the next op (R88, R94, R241), of a context in the cache (R17): CNT first, as a counter effect,
then EVT. A channel that is pausing completes only an op whose counter update was held (R250). -/
def State.opComplete (s : State) (c : Nat) : State :=
  let x := s.ctx c
  match x.items with
  | [] => s
  | it :: _ =>
    let b := s.opBytes it
    if !it.opDone ∨ x.halting ∨ !x.cached ∨ s.unitWaits schedIsland ∨ !(x.state = .running ∨ (x.state = .pausing ∧ (it.signalled ∨ opIs 0x13 b))) ∨ it.counterOp.isSome ∨
        !s.opSettled c it b then s
    else if opCnt b ∧ !it.quiet ∧ !it.signalled then
      s.beginCounter c it (x.f.group) (opCounter b) 1 true id
    else if opEvt b ∧ !it.quiet then
      if s.postFull schedIsland (opEvtWire b) then s else ((s.post schedIsland (opEvtWire b)).keepPosted c it).nextOp c b
    else (s.keepPosted c it).nextOp c b
def execOpComplete (c : Nat) (s : State) : Host.Outcome State Fault Refusal := .next (s.opComplete c)

end Sys2Proof.Machine
end

