-- ==== Sys2Proof/Machine/Ports.lean ====
section
/-! DEFINITION. The memory ports: rounds and preemption (R223 to R233), read data and write responses (R414 to R417),
bus errors and retries (R256 to R263, R468), holds, throttles, quotas, domains (R264, R355 to R362). -/
namespace Sys2Proof.Machine

/-! ## What a returned access means to its owner -/

/-- The side of an op that a beat belongs to. -/
def Op.sideOf (o : Op) (n : Nat) (cover : Nat) : Side :=
  match o.reads.find? fun r => r.1 = n with
  | some r => r.2
  | none => match o.bitmapAddr with
    | some a => lineSide a cover
    | none => lineSide 0 cover
/-- Where a run keeps a byte read: a bitmap byte counts from its segment's offset. -/
def OpRun.keptAt (r : OpRun) (seg side offset : Nat) : Nat :=
  match side, r.op.rowLen with
  | 2, some n => seg + (offset - seg / n / 8)
  | _, _ => offset
/-- Stream bytes of a side return: each is kept by its offset (R216: a retried beat contributes once). With the last read of
a segment it is read; one of a GATHER or SCATTER is kept for its element (R150). -/
def State.captureBytes (s : State) (c serial seg side offset : Nat) (data : List Byte) : State :=
  let s1 := s.modRun c fun r =>
    if r.serial ≠ serial then r
    else
      let o := r.keptAt seg side offset
      { r with buf := (r.buf.filter fun e => !(decide (e.1 % 4 = side) && decide (o ≤ e.1 / 4) && decide (e.1 / 4 < o + data.length))) ++
                  (List.range data.length).map fun i => (bufKey side (o + i), data.getD i 0) }
  if s.owners.any fun o => o = .opRead c serial seg then s1
  else s1.modRun c fun r =>
    if r.serial ≠ serial then r
    else r.modSeg seg fun g => if g.state = .reading then { g with state := if r.op.list.isSome then .kept else .read } else g
/-- A segment whose reads are all answered, one of them with an error, has been read as far as it came. -/
def State.readEnded (s : State) (c serial seg : Nat) : State := s.captureBytes c serial seg 3 0 []
/-- The frames that answer a read request with n bytes from a local address (R305): whole beats, at most 1,024 B. -/
def readChunks (a n : Nat) : List (Nat × Nat) :=
  let first := min n (1024 - a % 128)
  (0, first) :: (chunks 1024 (n - first)).map fun c => (first + c.1, c.2)
/-- Serve the end of an inbound request (R305, R306). -/
def State.endInbound (s : State) (src tag : Nat) (result : Nat) : State :=
  match s.fab.serving.find? fun f => f.src = src && decide (f.tag = tag) with
  | none => s
  | some f =>
    let s1 : State := { s with fab := { s.fab with serving := s.fab.serving.filter fun g => !(g.src = src && decide (g.tag = tag)) } }
    if f.type = 0x10 ∧ result = 0 then
      let n := fieldAt f.payload 0 2 % 8192
      (readChunks f.word n).foldl (fun t c => t.sendFrame (ansFrame' src tag f.cls (f.word + c.1) (s.bytesAt (f.word + c.1) c.2))) s1
    else s1.sendFrame { type := if f.type = 0x10 then 0x13 else 0x13, cls := f.cls, vl := 2, dest := src, tag := tag, word := result }
where
  ansFrame' (dest tag cls word : Nat) (payload : List Byte) : Frame :=
    { type := 0x11, cls := cls, vl := 2, dest := dest, tag := tag, word := word, payload := payload }
/-- A read has returned without error (R414). -/
def State.readReturned (s : State) (b : Beat) (o : Owner) : State :=
  match o with
  | .opRead c n seg =>
    match s.run c with
    | some r =>
      let side := r.op.sideOf b.side (b.offset + b.len)
      s.captureBytes c n seg b.side b.offset ((List.range b.len).map fun i => s.byteAt (localOf (side.addr (b.offset + i))))
    | none => s
  | .header c => if s.accessFor fun p => p = .header c then s else s.modCtx c fun x => { x with header := .got }
  | .fetch c => s.beatFetched c b.addr
  | .counterRead c => s.modItem c fun it => { it with counterOp := it.counterOp.map fun k => { k with old := some (s.numAt b.first 8) } }
  | .inboundRead src tag => if s.accessFor fun p => p = .inboundRead src tag then s else s.endInbound src tag 0
  | .pool => s.poolRun
  | _ => s
/-- Release the block lock of a counter update (R233). -/
def State.unlockBlock (s : State) (p : Nat) (block : Option Nat) : State :=
  match block with
  | some b => let q := s.port p; s.setPort p { q with blocks := q.blocks.filter (· ≠ b) }
  | none => s
def shadowBase (s : State) : Nat := s.obj 0x9031 0 / 4096 * 4096
def shadowAddr (s : State) (p : Nat) : Nat := shadowBase s + p % s.obj 0x9032 0 * 0x40
/-- The point moves over the positions stored above it. -/
def Twin.advance (t : Twin) : Nat → Twin
  | 0 => t
  | n + 1 =>
    if t.stored.contains (t.shadowPoint + 1) then
      Twin.advance { t with shadowPoint := t.shadowPoint + 1, stored := t.stored.filter (· ≠ t.shadowPoint + 1) } n
    else t
/-- A record of the shadow is stored (R285, R289), but in a shadow that a takeover has frozen (R295): an OPEN record of a new epoch sets the point; the twin point is sent. -/
def State.recordStored (s : State) (pos : Nat) : State :=
  let b := s.bytesAt (shadowAddr s pos) 64
  let t := s.twin
  let opens := decide (fieldAt b 0 1 = 5) && decide (fieldAt b 0x10 1 = 1) && !bitOf (fieldAt b 1 1) 0 && decide (fieldAt b 4 4 ≠ t.shadowOpen)
  let t1 : Twin :=
    if opens then { t with shadowPoint := pos, shadowHeld := true, shadowOpen := fieldAt b 4 4, shadowEpoch := fieldAt b 4 4,
                           stored := t.stored.filter fun p => decide (pos < p) }
    else if !t.shadowHeld then
      if pos = t.shadowPoint then { t with shadowHeld := true } else { t with stored := t.stored ++ [pos] }
    else if t.shadowPoint < pos then { t with stored := t.stored ++ [pos] } else t
  let t2 := if t1.shadowHeld then t1.advance t1.stored.length else t1
  let s1 : State := { s with twin := t2 }
  if t2.shadowHeld then
    s1.sendFrame { type := 0x1F, vl := 2, dest := s.obj 0x9030 0 % 4096, tag := t2.shipTag
                   payload := leBytes 8 t2.shadowPoint ++ leBytes 8 0 }
  else s1
/-- The write of a shadow record is answered. One that a TRUNCATE has discarded meanwhile counts as none, and its slot is cleared behind
the last such write (R290). -/
def State.shadowStored (s : State) (pos : Nat) : State :=
  if s.twin.gone.contains pos then
    if s.accessFor fun o => o = .shadow pos then s
    else ({ s with twin := { s.twin with gone := s.twin.gone.filter (· ≠ pos) } } : State).presentWrite (.clear pos) jrnReq
      (s.obj 0x4031 0) (shadowAddr s pos) (leBytes 64 0)
  else if s.twin.takeover ≠ 0 then s
  else s.recordStored pos
/-- A write of JRN's is answered without error: with no failed one left, an episode of JOURNAL_WRITE_FAULT is over (R270). -/
def State.endEpisode (s : State) (o : Owner) : State :=
  let left := s.jrn.failed.filter fun r => !(r.posted && decide (r.owner = o))
  { s with jrn := { s.jrn with failed := left, writeFault := s.jrn.writeFault && !left.isEmpty } }
/-- A failed write stands among those that JRN issues again; it is recorded once (R270). -/
def Journal.fail (j : Journal) (r : PortReq) : Journal :=
  { j with failed := (j.failed.filter fun q => !(q.posted && decide (q.owner = r.owner))) ++ [r], writeFault := true }
/-- The records of a shipment are written at their places (R285, R289). -/
def State.storeShipment (s : State) (tag : Nat) (records : List (List Byte)) : State :=
  records.foldl (fun t b => t.presentWrite (.shadow (fieldAt b 8 8)) jrnReq (s.obj 0x4031 0) (shadowAddr s (fieldAt b 8 8)) (b.take 64))
    { s with twin := { s.twin with shipTag := tag } }
/-- A slot that a TRUNCATE discards is still to be cleared (R290). -/
def State.clearing (s : State) : Bool :=
  let f (o : Owner) : Bool := match o with
    | .clear _ => true
    | _ => false
  !s.twin.gone.isEmpty || s.accessFor f || s.jrn.failed.any fun r => f r.owner
/-- With the discarded slots cleared, the shipments that waited for it are stored. -/
def State.storeWaiting (s : State) : State :=
  if s.clearing then s
  else s.twin.waiting.foldl (fun t e => t.storeShipment e.1 e.2) { s with twin := { s.twin with waiting := [] } }
/-- The sum of a cut counter update is written once its record has entered the ring (R277) and the write that was cut, which may still
land (R415), is answered; its block stays locked until the answer (assumption log 81). -/
def State.writeSettles (s : State) : State :=
  let cutOut (a : Nat) : Bool := s.ports.any fun p => p.2.wr.out.any fun x => x.discard && decide (x.beat.addr = beatOf a) &&
    (match x.owner with
     | .counterWrite _ => true
     | _ => false)
  (s.jrn.settles.filter fun e => s.inRing e.pos && !(s.accessFor fun o => o = .settle e.pos) &&
      !cutOut (s.counterAddr e.group e.counter)).foldl (fun t e =>
    let a := t.counterAddr e.group e.counter
    t.presentBeat { owner := .settle e.pos, requester := schedReq, cls := e.cls, presented := none, locked := true, block := some (beatOf a),
                    parked := false, beats := [] } a (leBytes 8 e.sum)) s
/-- A write is answered without error (R240, R415). -/
def State.writeAnswered (s : State) (p : Nat) (block : Option Nat) (o : Owner) : State :=
  match o with
  | .acceptWord c => if (s.ctx c).wordDirty then s.writeWord c else s
  | .counterWrite c => (s.unlockBlock p block).counterApplied c
  | .settle pos =>
    let s1 := (s.unlockBlock p block).endEpisode o
    (match s.jrn.settles.find? fun e => e.pos = pos with
     | some e => ({ s1 with jrn := { s1.jrn with settles := s1.jrn.settles.filter fun x => x.pos ≠ pos } } : State).wakeWaits e.group e.counter e.sum
     | none => s1)
  | .record pos =>
    (({ s with jrn := { s.jrn with acked := s.jrn.acked ++ [pos] } } : State).enterRing.endEpisode o).writeSettles
  | .upkeep => (s.endEpisode o).upkeepDone
  | .journal => s.endEpisode o
  | .inboundWrite src tag => if s.accessFor fun q => q = .inboundWrite src tag then s else s.endInbound src tag 0
  | .shadow pos => (s.endEpisode o).shadowStored pos
  | .clear _ => (s.endEpisode o).storeWaiting
  | .pool => s.poolRun
  | _ => s

/-! ## Bus errors (R256 to R263, R468) -/

/-- The stream offset, in the op's own stream, of a write's beat. -/
def OpRun.writeOffset (r : OpRun) (seg off : Nat) : Nat :=
  match r.op with
  | .decode w _ _ _ => off / w
  | .sift .. => seg
  | _ => off
/-- The stream offset, in the op's own stream, of the byte that an access serves (R132, R245): of the rows whose bitmap a beat
holds; and for what comes after the op's work, its end. -/
def State.streamOffset (s : State) (o : Owner) (b : Beat) : Nat :=
  match o with
  | .opRead _ _ seg => if b.side = 2 then seg else b.offset
  | .opWrite c n seg => (match s.run c with
    | some r => if r.serial = n then r.writeOffset seg b.offset else r.total
    | none => 0)
  | .result c _ | .fetch c | .counterRead c | .counterWrite c => s.doneOffset c
  | _ => 0
/-- The data op that issued a write has completed: a posted write fault (R468). -/
def State.postedFault (s : State) (c n first : Nat) : State :=
  ({ s with sched := { s.sched with
    postedFaults := satAdd u32Max s.sched.postedFaults 1, postedAddress := first, postedContext := c,
    postedSeq := (s.sched.posted.find? fun e => e.1 = n).elim (s.seqOf c) (·.2) } } : State).raise .postedWriteFault
/-- A data write of a completed op fails in KEEP or TWIN (R244, R468): it halts the channel as a fault of the item, and is
issued again at RESUME (DEDUCED, assumption log 79). -/
def State.lostWrite (s : State) (c p : Nat) (f : FaultRec) (r : PortReq) : State :=
  (s.modItem c fun it => { it with lostWrites := it.lostWrites ++ [(p, r)] }).fail c { f with offset := s.doneOffset c, signal := true }
/-- A failed write of an item's ending steps (R262): C010h names it, and no op's progress (R267). -/
def State.endFault (s : State) (c first port attempts : Nat) : State :=
  (s.modCtx c fun x =>
    let it := x.items.head?.getD {}
    { x with state := .halted, record :=
      { status := it.endStatus, cause := 8, port := port, attempts := min 255 attempts, address := first, progress := 0,
        seq := it.seq } }).raise .statusWriteFault
/-- The op's work is done, and its CNT is what waits (R88). -/
def State.counting (s : State) (c : Nat) : Bool := (s.item c).any fun it => it.counterOp.any (·.forSignal)
/-- The block lock of a counter update whose read has returned is released (R233, R234). -/
def State.freeBlock (s : State) (k : CounterOp) : State :=
  let a := s.counterAddr k.group k.counter
  if k.value ≠ 0 ∧ k.old.isSome then (match s.portOf a with
    | some p => s.unlockBlock p (some (beatOf a))
    | none => s)
  else s
/-- A counter update whose record is issued stands (R277, R282): its sum is still to be written once the record has entered the
ring. That write takes a lock of the block of its own, since every later addition reads what it leaves (DEDUCED, assumption
log 81). -/
def State.settleCounter (s : State) (c : Nat) (k : CounterOp) : State :=
  match k.jpos with
  | some pos =>
    let a := s.counterAddr k.group k.counter
    let s1 := match s.portOf a with
      | some q => let y := s.port q; s.setPort q { y with blocks := y.blocks ++ [beatOf a] }
      | none => s
    ({ s1 with jrn := { s1.jrn with settles := s1.jrn.settles ++
        [{ pos := pos, group := k.group, counter := k.counter, sum := (k.old.getD 0 + k.value) % 2 ^ 64, cls := s.classOf c }] } } : State).writeSettles
  | none => s
/-- A counter effect that is given up: nothing was added, or its sum is settled; its op's CNT is to come again, and finds the record
where there is one (R260, R282). -/
def Item.dropCounter (it : Item) : Item :=
  { it with counterOp := none, signalled := it.signalled && !(it.counterOp.any (·.forSignal)) }
/-- The channel's counter effect is given up; its lock is free. -/
def State.giveUpCounter (s : State) (c : Nat) : State :=
  match (s.item c).bind (·.counterOp) with
  | some k => (s.settleCounter c k).modItem c (·.dropCounter)
  | none => s
/-- A counter effect failed (R260). -/
def State.counterFailed (s : State) (c : Nat) (f : FaultRec) : State :=
  (s.giveUpCounter c).fail c { f with offset := s.doneOffset c, signal := s.counting c }
/-- The retries of an access are exhausted. -/
def State.exhausted (s : State) (p : Option Nat) (a : Access) (cause : Nat) (status : Status) : State :=
  let b := a.beat
  let port := p.getD 255
  let f : FaultRec := { status := status, detail := b.first, cause := cause, port := port, attempts := b.attempts + 1, address := b.first }
  let opFault (c n off : Nat) : State :=
    let current := match s.run c with
      | some r => decide (r.serial = n)
      | none => decide (s.opSerial c = some n)
    if current then s.failOp c { f with offset := off }
    else if s.journaled then
      s.lostWrite c port f { owner := a.owner, requester := a.requester, cls := a.cls, beats := [{ b with attempts := 0 }],
                             presented := none, locked := false, block := none, parked := false }
    else s.postedFault c n b.first
  match a.owner with
  | .opRead c n seg => (opFault c n (s.streamOffset a.owner b)).readEnded c n seg
  | .opWrite c n _ => opFault c n (s.streamOffset a.owner b)
  | .result c n => opFault c n (s.streamOffset a.owner b)
  | .header c =>
    let g : FaultRec := { f with status := .fetchFault }
    if (s.ctx c).items.isEmpty ∧ (s.ctx c).accepting.isEmpty then (s.modCtx c fun x => { x with header := .none }).haltHeader c g
    else s.modCtx c fun x => { x with header := .got, headerFault := some g }
  | .fetch c =>
    if (s.item c).any fun it => it.need.contains b.addr then
      (s.modItem c fun it => { it with fetch := .none, need := [] }).fail c { f with status := .fetchFault, offset := s.doneOffset c }
    else s
  | .ending c => s.endFault c b.first port (b.attempts + 1)
  | .acceptWord c => (s.modCtx c fun x => { x with wordRetry := true }).raise .statusWriteFault
  | .counterRead c => (s.unlockBlock port a.block).counterFailed c f
  | .counterWrite c => (s.unlockBlock port a.block).counterFailed c f
  | .record _ | .journal | .upkeep | .shadow _ | .clear _ | .settle _ =>
    let r : PortReq := { owner := a.owner, requester := a.requester, cls := a.cls, beats := [{ b with attempts := 0 }],
                         presented := none, locked := a.locked, block := a.block, parked := false }
    let s1 : State := { s with jrn := s.jrn.fail r }
    s1.raiseIf (!s.jrn.writeFault) .journalWriteFault
  | .inboundRead src tag => s.endInbound src tag 1
  | .inboundWrite src tag => s.endInbound src tag 1
  | .pool => s.popFailed f
  | _ => s
/-- The channel of a read whose retries a halt or an abort ends (R249, R253). -/
def State.readsStopped (s : State) (o : Owner) : Bool :=
  match o.channel with
  | some c => s.failing c && (match o with
    | .opRead .. => true
    | .fetch _ => true
    | .counterRead _ => true
    | _ => false)
  | none => decide (o = .pool) && s.poolPop.any fun e => s.failing e.1
/-- A request of another node: that node's originator retries it, this device does not (R263). -/
def Owner.inbound : Owner → Bool
  | .inboundRead .. => true
  | .inboundWrite .. => true
  | _ => false
/-- A failed read is retried: the write side of its burst ends its grant after the beats before it, which are written as soon
as they are here (R259). -/
def State.endGrant (s : State) (o : Owner) (offset : Nat) : State :=
  match o with
  | .opRead c n seg =>
    let s1 := s.modRun c fun r => if r.serial ≠ n then r
      else r.modSeg seg fun g => { g with stop := some (min offset (g.stop.getD offset)) }
    match s1.run c with
    | some r => match r.segs.find? fun g => g.lo = seg && r.mayCarry (s1.faultsOf c) g && s1.laneTakes r g with
      | some g => s1.carry c r g
      | none => s1
    | none => s1
  | _ => s
/-- A locked burst whose first read grant is decided runs to its release (R361): an access of its is granted, or bytes of it are
here, or it holds its block. -/
def State.lockBegun (s : State) (r : PortReq) : Bool :=
  r.locked && (r.holds || (match r.owner with
    | .opRead c n seg =>
      (s.ports.any fun e => e.2.rd.out.any fun a => a.owner = r.owner) ||
        (match s.run c with
         | some q => decide (q.serial = n) && q.segs.any fun g => decide (g.lo = seg) &&
             q.buf.any fun x => decide (g.lo ≤ x.1 / 4) && decide (x.1 / 4 < g.hi)
         | none => false)
    | _ => false))
/-- A request that its port has not granted needs the domain (R264): a burst, a forme fetch that its item waits for, or an
operand structure read, with the address and the stream offset of its first byte; neither an ending step nor, while its island
serves, what a locked burst still is granted (R361), nor a transfer that hangs (R347). -/
def State.needsDomain (s : State) (p : Nat) (write : Bool) (r : PortReq) : Option (Nat × Nat × Nat) :=
  let e (c : Nat) : Nat × Nat × Nat := match r.beats with
    | b :: _ => (c, b.first, s.streamOffset r.owner b)
    | [] => (c, 0, 0)
  if r.hung || (r.locked && !(s.island (portIsland p)).absent && (write || s.lockBegun r)) then none
  else match r.owner with
    | .ending _ => none
    | .header c => if (s.ctx c).items.isEmpty && (s.ctx c).accepting.isEmpty then some (e c) else none
    | .fetch c => if (s.item c).any fun it => r.beats.any fun b => it.need.contains b.addr then some (e c) else none
    | o => o.channel.map e
/-- The channels with a request at the port that has not begun. -/
def State.domainNeeds (s : State) (p : Nat) : List (Nat × Nat × Nat) :=
  let q := s.port p
  (q.rd.queue.filterMap (s.needsDomain p false)) ++ q.wr.queue.filterMap (s.needsDomain p true)
/-- Of what the channels need, what each needs first in its op's stream (R132, R150). -/
def firstNeeds (l : List (Nat × Nat × Nat)) : List (Nat × Nat × Nat) :=
  l.filter fun e => l.all fun x => decide (x.1 ≠ e.1) || decide (e.2.2 ≤ x.2.2)
/-- The channels that need a closing domain stall (R264, R440), legacy slots among them. -/
def State.domainStall (s : State) (p : Nat) : State :=
  if !s.portDown p then s
  else (firstNeeds (s.domainNeeds p)).foldl (fun t e =>
    if legacyBase ≤ e.1 then
      let k := t.slot (e.1 - legacyBase)
      if (k.state = 1) && k.stalled.isNone then t.stallOp e.1 (.domain p e.2.1 e.2.2) else t
    else match (t.ctx e.1).state with
      | .running | .idle => t.stall e.1 (.domain p e.2.1 e.2.2)
      | .paused => t.modCtx e.1 fun x => { x with waitOn := some (.domain p e.2.1 e.2.2) }
      | _ => t) s
/-- A beat of a request ends in a bus error; `holds` says that its lock is taken. -/
def State.beatFailed (s : State) (p : Nat) (write : Bool) (a : Access) (cause : Nat) (holds : Bool) : State :=
  let n := s.obj 0x4010 0
  let retried : Bool := n = 0 || decide (a.beat.attempts < n) || (decide (a.owner = .pool) && s.poolEndures)
  if retried && !s.readsStopped a.owner && !a.owner.inbound then
    ((s.present p write { owner := a.owner, requester := a.requester, cls := a.cls, beats := [{ a.beat with attempts := a.beat.attempts + 1 }],
                          presented := none, locked := a.locked, block := a.block, parked := false, holds := holds
                          posted := true }).endGrant a.owner a.beat.offset).domainStall p
  else s.exhausted (some p) a cause .busFault
/-- After a bus error the access is retried with a new tag, up to BUS_RETRIES times (R256, R257), one of POOL's that no POP waits for
without limit (DESIGN CHOICE: the spec gives its failure no effect, assumption log 13); a locked one keeps its lock (R260), and
one to a port that takes no access waits, with its channel (R348). -/
def State.busError (s : State) (p : Nat) (write : Bool) (a : Access) (cause : Nat) : State := s.beatFailed p write a cause a.locked
/-- A request that waits at a port whose island is reset is not done: each of its beats counts as a bus error (R349, R352). -/
def State.notDone (s : State) (p : Nat) (write : Bool) (r : PortReq) : State :=
  r.beats.foldl (fun t b => t.beatFailed p write
    { tag := 0, discard := false, owner := r.owner, requester := r.requester, cls := r.cls, locked := r.locked, block := r.block, beat := b }
    (if write then 2 else 1) r.holds) s

/-! ## Answers from the controller -/

def PortChan.remove (c : PortChan) (tag : Nat) : PortChan := { c with out := c.out.filter fun a => a.tag ≠ tag }
def State.dropAccess (s : State) (p : Nat) (write : Bool) (tag : Nat) : State :=
  let q := s.port p
  s.setPort p (q.setChan write ((q.chan write).remove tag))
/-- A tag of the port is outstanding; a retired read tag is so until its data returns (R258, R414). -/
def Port.expects (q : Port) (write : Bool) (tag : Nat) : Bool :=
  if write then q.wr.out.any fun a => a.tag = tag
  else q.rd.retired.contains tag || q.rd.out.any fun a => a.tag = tag
/-- A read data beat (R258, R414): RDAT_DATA of an access without error holds the bytes of memory at its beat (assumption log 95). -/
def State.readData (s : State) (p tag : Nat) (err : Bool) : State :=
  let q := s.port p
  if q.rd.retired.contains tag then s.setPort p { q with rd := { q.rd with retired := q.rd.retired.filter (· ≠ tag) } }
  else match q.rd.out.find? fun a => a.tag = tag with
    | none => s
    | some a =>
      let s1 := s.dropAccess p false tag
      if a.discard then s1
      else if err then s1.busError p false a 1
      else s1.readReturned a.beat a.owner
/-- A write response (R414 to R416). `applied` says whether an errored write's bytes landed (assumption log 18). -/
def State.writeResponse (s : State) (p tag : Nat) (err applied : Bool) : State :=
  match (s.port p).wr.out.find? fun a => a.tag = tag with
  | none => s
  | some a =>
    let s1 := s.dropAccess p true tag
    let s2 := if !err || applied then s1.land a.beat.data else s1
    if a.discard then s2.writeSettles else if err then s2.busError p true a 2 else s2.writeAnswered p a.block a.owner
/-- The access timeout of an attempt expires (R256 to R258): a read's tag is retired; a write's tag stays out until its
response, which is then discarded. -/
def State.accessTimeout (s : State) (p : Nat) (write : Bool) (tag : Nat) (applied : Bool) : State :=
  let q := s.port p
  if s.obj 0x3100 0 = 0 ∨ q.hold then s
  else match (q.chan write).out.find? fun a => a.tag = tag && !a.discard with
    | none => s
    | some a =>
      if write then
        let c := { q.wr with out := q.wr.out.map fun x => if x.tag = tag then { x with discard := true } else x }
        let s1 := s.setPort p { q with wr := c }
        (if applied then s1.land a.beat.data else s1).busError p true a 3
      else
        let c := q.rd.remove tag
        (s.setPort p { q with rd := { c with retired := c.retired ++ [tag] } }).busError p false a 3
def execAccessTimeout (port : Nat) (write : Bool) (tag : Nat) (applied : Bool) (s : State) : Host.Outcome State Fault Refusal :=
  .next (s.accessTimeout port write tag applied)

/-! ## Rounds (R223 to R233, R236) -/

def slotByteDefault (_ : Nat) : Byte := 0x80
/-- A commit to the port's type case is pending (R226). -/
def Port.casePending (q : Port) : Bool := q.rd.swapPending || q.wr.swapPending
/-- The slot byte a channel's round uses: a channel that has swapped already uses the committed table (R226). -/
def Port.slotByte (q : Port) (write : Bool) : Nat :=
  let c := q.chan write
  let t := if q.casePending && !c.swapPending then q.caseEdit else q.caseActive
  (Tab.get slotByteDefault t c.slot).toNat
/-- The pointer advances; at the wrap a pending commit swaps the channel, and the tables when both have (R226). -/
def Port.advanceSlot (q : Port) (write : Bool) : Port :=
  let c := q.chan write
  if c.slot + 1 < 512 then q.setChan write { c with slot := c.slot + 1 }
  else
    let r := q.setChan write { c with slot := 0, swapPending := false }
    if q.casePending ∧ !r.casePending then { r with caseActive := q.caseEdit, caseEdit := q.caseActive } else r
/-- The class is masked by its quota (R224). -/
def Port.quotaMasked (q : Port) (cls : Nat) : Bool :=
  match cls with
  | 0 => q.limit0 ≠ 0 && decide (q.limit0 ≤ q.quota0)
  | 1 => q.limit1 ≠ 0 && decide (q.limit1 ≤ q.quota1)
  | _ => false
/-- Tags a request may take: 1,024 of each kind, less those outstanding or retired (R228, R258, R414). -/
def PortChan.tagsUsed (c : PortChan) : List Nat := c.out.map (·.tag) ++ c.retired
/-- A request is eligible in a round (R228); while the domain goes down only one of a locked burst that runs to its release
(R361). -/
def Port.eligible (q : Port) (write : Bool) (share cycle : Nat) (r : PortReq) : Bool :=
  !q.masked.contains r.requester && !q.quotaMasked r.cls &&
    decide ((q.chan write).tagsUsed.length + r.beats.length ≤ 1024) &&
    (!q.throttle || share = 0 || decide ((q.chan write).leadUntil ≤ cycle + 2)) &&
    (write || r.holds || !r.locked || r.beats.all fun b => !q.blocks.contains b.addr) &&
    (!q.qreq || (r.locked && (write || r.holds))) && !q.qack
/-- The request is presented and not parked: it stands on its requester's wires (R230). -/
def PortReq.onWires (r : PortReq) : Bool := r.presented.isSome && !r.parked
/-- a comes before b: the earlier presentation, then the lower requester number (R230). -/
def PortReq.older (a b : PortReq) : Bool :=
  let x := a.presented.getD 0
  let y := b.presented.getD 0
  decide (x < y) || (decide (x = y) && decide (a.requester < b.requester))
def oldest (l : List PortReq) : Option PortReq :=
  l.foldl (fun m r => match m with
    | none => some r
    | some a => if r.older a then some r else m) none
/-- Highest class, then oldest (R225). -/
def highest (l : List PortReq) : Option PortReq :=
  let best := l.foldl (fun m r => min m r.cls) 8
  oldest (l.filter fun r => r.cls = best)
/-- The round's winner by the slot byte (R225). -/
def winner (byte : Nat) (l : List PortReq) : Option PortReq :=
  if byte < 8 then
    match oldest (l.filter fun r => r.cls = byte) with
    | some r => some r
    | none => highest l
  else highest l
/-- n free tags: those the command names, then the lowest (R414; assumption log 7). -/
def pickTags (used named : List Nat) (n : Nat) : List Nat :=
  let want := (named.filter fun t => decide (t < 1024) && !used.contains t).eraseDups.take n
  want ++ ((List.range 1024).filter fun t => !used.contains t && !want.contains t).take (n - want.length)
/-- A 48-bit counter with its 16-bit prescaler (R236). -/
def bumpWrap (t : Tab Nat) (k n : Nat) : Tab Nat := Tab.put zeroTab t k ((Tab.get zeroTab t k + n) % 2 ^ 64)
/-- A grant is decided in cycle d for a request whose first beat falls in cycle f (R224, R229, R233, R236, R223). The wait of port
leading is rounded down to whole port cycles (DESIGN CHOICE, assumption log 96). -/
def Port.grant (q : Port) (write : Bool) (share d f : Nat) (r : PortReq) (named : List Nat) : Port :=
  let c := q.chan write
  let tags := pickTags c.tagsUsed named r.beats.length
  let n := r.beats.length
  let acc := (tags.zip r.beats).map fun x =>
    ({ tag := x.1, discard := false, owner := r.owner, requester := r.requester, cls := r.cls, locked := r.locked, block := r.block,
       beat := x.2 } : Access)
  let c' : PortChan := { c with
    queue := c.queue.erase r, out := c.out ++ acc,
    leadUntil := if q.throttle && decide (share ≠ 0) then f + n + n * 256 / share - n else 0,
    owner := some { cls := r.cls, locked := r.locked, requester := r.requester, firstBeat := f, lastBeat := f + n - 1, tags := tags, req := r } }
  let q1 := q.setChan write c'
  let wait := min u32Max (d - r.presented.getD d)
  { q1 with
    grants := bumpWrap q1.grants r.requester 1
    longest := Tab.put zeroTab q1.longest r.requester (max (Tab.get zeroTab q1.longest r.requester) wait)
    quota0 := if r.cls = 0 then q1.quota0 + 1 else q1.quota0
    quota1 := if r.cls = 1 then q1.quota1 + 1 else q1.quota1
    blocks := match r.block with
      | some b => if write || r.holds then q1.blocks else q1.blocks ++ [b]
      | none => q1.blocks }
def PortChan.parkedCount (c : PortChan) : Nat := (c.queue.filter (·.parked)).length
def Port.parkedCount (q : Port) : Nat := q.rd.parkedCount + q.wr.parkedCount
/-- The request at a place of the channel's queue, if it stands on the wires, is parked while the pending queue has room (R230,
R236). -/
def Port.parkOne (q : Port) (write : Bool) (i : Nat) : Port :=
  let c := q.chan write
  match c.queue[i]? with
  | some r =>
    if r.onWires && decide (q.parkedCount < 128) then
      let q1 := q.setChan write { c with queue := c.queue.set i { r with parked := true } }
      { q1 with waits := bumpWrap q1.waits r.requester 1 }
    else q
  | none => q
/-- Requests that lose the round are parked while the pending queue has room (R230, R236). -/
def Port.park (q : Port) (write : Bool) : Port := (List.range (q.chan write).queue.length).foldl (fun u i => u.parkOne write i) q
/-- The channel ran a round in the cycle: it had no owner, or was within two cycles of its owner's last beat (R229). -/
def PortChan.sampled (c : PortChan) (cycle : Nat) : Bool :=
  match c.owner with
  | some g => decide (g.lastBeat ≤ cycle + 2)
  | none => true
/-- A requester has a request on its wires at the port: it presents nothing else there (R230). -/
def Port.wiresTaken (q : Port) (requester : Nat) : Bool :=
  (q.rd.queue ++ q.wr.queue).any fun r => r.onWires && decide (r.requester = requester)
/-- A new request, at a place of the channel's queue, is presented by the sampling cycle (R230). Its presentation falls into that cycle
where the channel has run a round in every cycle, or where the round is a preemption's (R231); else into the first one it could
be, and a request presented in a cycle without a round is parked at once (assumption log 74). -/
def Port.presentOne (q : Port) (write now : Bool) (cycle i : Nat) : Port :=
  let c := q.chan write
  match c.queue[i]? with
  | some r =>
    if r.presented.isSome || q.wiresTaken r.requester || q.masked.contains r.requester then q
    else
      let at' := if now || c.sampled r.since then cycle else min r.since cycle
      let rest := c.queue.map fun x =>
        if x.requester = r.requester ∧ x.presented.isNone then { x with since := max x.since (at' + 1) } else x
      let q1 := q.setChan write { c with queue := rest.set i { r with presented := some at' } }
      if at' < cycle then q1.parkOne write i else q1
  | none => q
/-- The requests that a round finds presented; `now` for a preemption's. -/
def Port.sample (q : Port) (write now : Bool) (cycle : Nat) : Port :=
  { (List.range (q.chan write).queue.length).foldl (fun u i => u.presentOne write now cycle i) q with cycle := max q.cycle cycle }
/-- A round that samples in a cycle (R228 to R230): on a busy channel not before two cycles ahead of its owner's last
beat, and not where a preemption of the same cycle has abandoned it (R231). -/
def Port.round (q : Port) (write : Bool) (share cycle : Nat) (named : List Nat) : Port :=
  let c := q.chan write
  if !c.sampled cycle || decide (cycle < c.cutAt) then q
  else
    let q1 := q.sample write false cycle
    let byte := q1.slotByte write
    let q2 := q1.advanceSlot write
    match winner byte ((q2.chan write).queue.filter fun r => r.presented.isSome && q2.eligible write share cycle r) with
    | some r =>
      let f := match c.owner with
        | some g => max (cycle + 2) (g.lastBeat + 1)
        | none => cycle + 2
      let q3 := q2.grant write share (cycle + 1) f r named
      let flight : Flight :=
        { cycle := cycle, req := r, tags := ((q3.chan write).owner.map (·.tags)).getD [], owner := c.owner, slot := c.slot,
          swapPending := c.swapPending, swapped := q1.casePending && !q2.casePending, leadUntil := c.leadUntil,
          longest := Tab.get zeroTab q1.longest r.requester }
      (q3.setChan write { q3.chan write with flight := some flight }).park write
    | none => (q2.setChan write { q2.chan write with flight := none }).park write
/-- The scheduled round that sampled in the cycle is abandoned (R231): its grant is as if it had not been decided, its slot is
not used, and its request waits on. -/
def Port.abandon (q : Port) (write : Bool) (cycle : Nat) : Port :=
  match (q.chan write).flight with
  | none => q
  | some f =>
    if f.cycle ≠ cycle then q
    else
      let c := q.chan write
      let q1 := q.setChan write { c with
        queue := c.queue ++ [f.req], out := c.out.filter fun a => !f.tags.contains a.tag, owner := f.owner, slot := f.slot,
        swapPending := f.swapPending, leadUntil := f.leadUntil, flight := none }
      let q2 : Port := { q1 with
        grants := Tab.put zeroTab q1.grants f.req.requester (Tab.get zeroTab q1.grants f.req.requester - 1)
        longest := Tab.put zeroTab q1.longest f.req.requester f.longest
        quota0 := if f.req.cls = 0 then q1.quota0 - 1 else q1.quota0
        quota1 := if f.req.cls = 1 then q1.quota1 - 1 else q1.quota1
        blocks := match f.req.block with
          | some b => if write || f.req.holds then q1.blocks else q1.blocks.filter (· ≠ b)
          | none => q1.blocks
        caseActive := if f.swapped then q1.caseEdit else q1.caseActive
        caseEdit := if f.swapped then q1.caseActive else q1.caseEdit }
      q2.park write
def State.throttleShare (s : State) : Nat := s.obj 0x4034 0
/-- The port as a round finds it: closing with its domain or island, the locked bursts that have begun marked (R361). -/
def State.roundPort (s : State) (p : Nat) : Port :=
  let q := s.port p
  let mark (c : PortChan) : PortChan := { c with queue := c.queue.map fun r => { r with holds := s.lockBegun r } }
  { q with qreq := s.portClosing p, rd := mark q.rd }
def State.arbitrate (s : State) (p : Nat) (write : Bool) (cycle : Nat) (tags : List Nat) : State :=
  if 8 ≤ p then s
  else if (s.island (portIsland p)).unreachable then s.domainStall p
  else
    let q := s.roundPort p
    (s.setPort p { q.round write s.throttleShare cycle tags with qreq := (s.port p).qreq }).domainStall p
def execArbitrationRound (port : Nat) (write : Bool) (cycle : Nat) (tags : List Nat) (s : State) : Host.Outcome State Fault Refusal :=
  .next (s.arbitrate port write cycle tags)
/-- A preemption round that samples in a cycle (R231, R232): a scheduled round in flight is abandoned, and the owner, whose
beats have begun by the deciding cycle, is cut after its beat of that cycle. What R228 asks of a request beside R231 holds for it too
(DESIGN CHOICE, assumption log 96). -/
def Port.preempt (q : Port) (write : Bool) (classes share cycle : Nat) (named : List Nat) : Port :=
  let q0 := (q.abandon write cycle).sample write true cycle
  match (q0.chan write).owner with
  | none => q
  | some g =>
    if g.locked ∨ cycle + 1 < g.firstBeat ∨ g.lastBeat ≤ cycle + 1 ∨ 128 ≤ q0.parkedCount then q
    else
      match highest ((q0.chan write).queue.filter fun r =>
          r.presented.isSome && bitOf classes r.cls && decide (r.cls < g.cls) && q0.eligible write share cycle r) with
      | none => q
      | some r =>
        let issued := cycle + 2 - g.firstBeat
        let cut := g.tags.take issued
        let gone := g.tags.drop issued
        let c1 := q0.chan write
        let out := (c1.out.filter fun a => !gone.contains a.tag).map fun a => if cut.contains a.tag then { a with discard := true } else a
        let q2 := q0.setChan write { c1 with out := out, queue := c1.queue ++ [{ g.req with parked := true }], cutAt := cycle + 1 }
        let q3 := { q2 with waits := bumpWrap q2.waits g.requester 1 }
        (q3.grant write share (cycle + 1) (cycle + 2) r named).park write
def State.preemption (s : State) (p : Nat) (write : Bool) (cycle : Nat) (tags : List Nat) : State :=
  if 8 ≤ p ∨ (s.island (portIsland p)).unreachable then s
  else
    let q := s.roundPort p
    s.setPort p { q.preempt write (s.obj 0x4030 0) s.throttleShare cycle tags with qreq := (s.port p).qreq }
def execPreemptionRound (port : Nat) (write : Bool) (cycle : Nat) (tags : List Nat) (s : State) : Host.Outcome State Fault Refusal :=
  .next (s.preemption port write cycle tags)
/-- A quota window begins at a port: the counts restart, a change of quota takes effect (R224). -/
def State.quotaWindow (s : State) (p : Nat) : State :=
  s.setPort p { s.port p with quota0 := 0, quota1 := 0, limit0 := s.obj 0x4020 0, limit1 := s.obj 0x4021 0 }
def execQuotaWindowStart (port : Nat) (s : State) : Host.Outcome State Fault Refusal := .next (s.quotaWindow port)

/-! ## Sidebands (R355 to R362) -/

/-- What stands at a port whose clock has stopped hangs there, until the clock returns or the island is reset (R347). -/
def State.hang (s : State) (p : Nat) (hung : Bool) : State :=
  let q := s.port p
  let set (c : PortChan) : PortChan := { c with queue := c.queue.map fun r => { r with hung := hung } }
  s.setPort p { q with rd := set q.rd, wr := set q.wr }
/-- A clock that is absent counts as paused while CTL accepts the port's HOLD as asserted (R337, R358). -/
def State.pauseClock (s : State) (p : Nat) (held : Bool) : State :=
  let k := s.island (portIsland p)
  if 8 ≤ p ∨ k.clockPresent then s
  else (s.setIsland (portIsland p) { k with clockPaused := held }).hang p (!held)
def execMemHoldAssert (port : Nat) (s : State) : Host.Outcome State Fault Refusal :=
  .next ((s.setPort port { s.port port with hold := true }).pauseClock port true)
def execMemHoldRelease (port : Nat) (s : State) : Host.Outcome State Fault Refusal :=
  .next ((s.setPort port { s.port port with hold := false, holdLongRaised := false }).pauseClock port false)
/-- One assertion of HOLD lasts longer than HOLD_LONG (R359). -/
def State.holdLong (s : State) (p : Nat) : State :=
  let q := s.port p
  if q.hold ∧ !q.holdLongRaised ∧ s.obj 0x3120 0 ≠ 0 then (s.setPort p { q with holdLongRaised := true }).raise .memHoldLong else s
def execMemHoldLong (port : Nat) (s : State) : Host.Outcome State Fault Refusal := .next (s.holdLong port)
def execThrottleAssert (port : Nat) (s : State) : Host.Outcome State Fault Refusal :=
  .next (s.setPort port { s.port port with throttle := true })
/-- A wait of port leading that is still counting ends at once (R360). -/
def State.unthrottle (s : State) (p : Nat) : State :=
  let q := s.port p
  s.setPort p { q with throttle := false, rd := { q.rd with leadUntil := 0 }, wr := { q.wr with leadUntil := 0 } }
def execThrottleDeassert (port : Nat) (s : State) : Host.Outcome State Fault Refusal := .next (s.unthrottle port)
/-- QREQ: no new grant; each channel that needs the domain stalls (R264, R361). -/
def State.domainRequest (s : State) (p : Nat) : State := (s.setPort p { s.port p with qreq := true }).domainStall p
def execDomainDownRequest (port : Nat) (s : State) : Host.Outcome State Fault Refusal := .next (s.domainRequest port)
/-- Nothing is outstanding at the port, and no locked burst has its write to come, whether it is presented or its block is still
locked; retired tags do not count (R361). -/
def Port.drained (q : Port) : Bool := (q.rd.out ++ q.wr.out).isEmpty && !(q.wr.queue.any (·.locked)) && q.blocks.isEmpty
/-- QACK once the port is drained (R361). -/
def State.domainDown (s : State) (p : Nat) : State :=
  let q := s.port p
  if q.qreq ∧ q.drained ∧ !q.rd.queue.any s.lockBegun then s.setPort p { q with qack := true } else s
def execDomainDown (port : Nat) (s : State) : Host.Outcome State Fault Refusal := .next (s.domainDown port)
/-- The domain returns, or its request is withdrawn: stalled channels proceed (R264, R362). -/
def State.domainReturn (s : State) (p : Nat) : State :=
  let s1 := s.setPort p { s.port p with qreq := false, qack := false }
  let s2 := s.ctxs.foldl (fun t e =>
    (match e.2.waitOn with
     | some (.domain q _ _) => if q = p then
         (if e.2.items.isEmpty then
             t.modCtx e.1 fun x => { x with waitOn := none, state := if x.pauseBit then .paused else .idle }
           else t.unstall e.1).askFetch e.1
       else t
     | _ => t).askHeader e.1) s1
  s.sched.slots.foldl (fun t e => match e.2.stalled with
    | some (.domain q _ _) => if q = p then t.setSlot e.1 { t.slot e.1 with stalled := none } else t
    | _ => t) s2
def execDomainReturn (port : Nat) (s : State) : Host.Outcome State Fault Refusal := .next (s.domainReturn port)
/-! ## Requests taken back (R250, R265) -/

/-- The block locks that requests hold are released with them (R233). -/
def State.freeBlocks (s : State) (gone : List PortReq) : State :=
  let free := gone.filterMap fun r => if r.holds then r.block else none
  { s with ports := s.ports.map fun e => (e.1, { e.2 with blocks := e.2.blocks.filter fun b => !free.contains b }) }
/-- Requests of the channel that are parked or on the wires, by port and channel of the port, are withdrawn; what they served
is to be issued again. -/
def State.takeBack (s : State) (c : Nat) (f : Nat → Bool → PortReq → Bool) : State :=
  let gone := s.ports.flatMap fun e => (e.2.rd.queue.filter (f e.1 false)) ++ (e.2.wr.queue.filter (f e.1 true))
  let has (o : Owner) : Bool := gone.any fun r => r.owner = o
  let needed (it : Item) : Bool := gone.any fun r => r.owner = .fetch c && r.beats.any fun b => it.need.contains b.addr
  let s1 : State := { s with ports := s.ports.map fun e => (e.1, { e.2 with rd := e.2.rd.drop (f e.1 false), wr := e.2.wr.drop (f e.1 true) }) }
  let s2 := (s1.freeBlocks gone).modRun c fun r => { r with segs := r.segs.map fun g =>
    if (g.state = .reading ∧ !(s1.owners.any fun o => o = .opRead c r.serial g.lo)) ∨ has (.opWrite c r.serial g.lo) then
      { g with state := .ready, wrote := 0 }
    else g }
  if legacyBase ≤ c then s2
  else (if has (.counterRead c) || has (.counterWrite c) then s2.giveUpCounter c else s2).modItem c fun i =>
    if needed i then { i with fetch := if i.fetch = .structs then .got else .none, need := [] } else i
/-- What the channel has at ports that take no access is taken back; with it, of the stall's place and what was taken back, the
first in the op's stream (R132, R150): port, address and offset. -/
def State.endStall (s : State) (c p a off : Nat) : State × Nat × Nat × Nat :=
  let need (q : Nat) (w : Bool) (r : PortReq) : Option (Nat × Nat × Nat) :=
    if s.portDown q then (s.needsDomain q w r).filter fun e => decide (e.1 = c) else none
  let all := s.ports.flatMap fun e => ((e.2.rd.queue.filterMap (need e.1 false)) ++ e.2.wr.queue.filterMap (need e.1 true)).map fun n => (e.1, n.2)
  (s.takeBack c fun q w r => (need q w r).isSome, all.foldl (fun m n => if n.2.2 < m.2.2 then n else m) (p, a, off))
/-- A stall reaches DOMAIN_LIMIT (R264): of context `c`, of legacy slot c − 262,144 (R446), or, from 262,208 on, of the
inbound request of that place in order of arrival (R306). -/
def State.domainLimit (s : State) (c : Nat) : State :=
  if s.obj 0x3130 0 = 0 then s
  else if legacyBase + 64 ≤ c then
    match s.fab.serving[c - legacyBase - 64]? with
    | some f =>
      (s.withdraw fun r => !r.hung && (r.owner = .inboundRead f.src f.tag || r.owner = .inboundWrite f.src f.tag)).endInbound f.src f.tag 8
    | none => s
  else
    let f (e : Nat × Nat × Nat) : FaultRec :=
      { offset := e.2.2, status := .domainDown, detail := e.2.1, cause := 6, port := e.1, address := e.2.1, signal := s.counting c }
    if legacyBase ≤ c then
      match (s.slot (c - legacyBase)).stalled with
      | some (.domain p a off) =>
        let e := s.endStall c p a off
        (e.1.setSlot (c - legacyBase) { e.1.slot (c - legacyBase) with stalled := none }).failOp c { f e.2 with signal := false }
      | _ => s
    else match (s.ctx c).waitOn with
      | some (.domain p a off) =>
        let e := s.endStall c p a off
        if (s.ctx c).items.isEmpty then e.1.haltHeader c (f e.2)
        else (e.1.unstall c).fail c (f e.2)
      | _ => s
def execDomainLimit (c : Nat) (s : State) : Host.Outcome State Fault Refusal := .next (s.domainLimit c)

end Sys2Proof.Machine
end

