-- ==== Sys2Proof/Machine/Stops.lean ====
section
/-! DEFINITION. The end of an item (R82, R243, R262), halts (R249), pauses (R250, R251), resumes (R252), aborts (R253, R254), and
the acts of CHANNEL_COMMAND (R248). -/
namespace Sys2Proof.Machine

/-! ## The steps of an item's end -/

/-- The final status of an item that has reached its end (R80, R81, R139). -/
def Item.finalArea (it : Item) : Nat × List Byte :=
  match it.mismatch with
  | some (i, blk, off) => (Status.doneMismatch.code, statusBytes Status.doneMismatch.code i 0 blk off)
  | none =>
    let st := if it.moved then Status.done.code else Status.doneZero.code
    (st, statusBytes st it.opIndex 0 it.blockNo it.delivered)
/-- A write of the ending steps: a fault found before it is issued ends it at once (R262, R419). -/
def State.endWrite (s : State) (c a : Nat) (bs : List Byte) : State :=
  let dest := lineSide a bs.length
  match (sideBeats dest bs.length 0).find? fun b => s.place true b.2.2 = .nowhere with
  | some _ => s.endFault c a 255 0
  | none =>
    (s.presentWrites { owner := .ending c, requester := schedReq, cls := (s.ctx c).f.cls, locked := false } dest 0 bs).modItem c
      fun it => { it with sent := true }
/-- JRN keeps, for RECOVER, where the item whose COMPLETE record is issued next pushed to (R174, R292; assumption log 50). -/
def State.notePushed (s : State) (c seq : Nat) (refs : List Nat) : State :=
  if refs.isEmpty then s
  else { s with jrn := { s.jrn with pushed := s.jrn.pushed ++ [{ pos := s.jrn.head, ctx := c, seq := seq, refs := refs }] } }
/-- The steps begin: the completion record in KEEP and TWIN once every data write is acknowledged (R243), else the
writes. -/
def State.beginEnd (s : State) (c : Nat) (it : Item) (status : Nat) (area : List Byte) : State :=
  let mark (t : State) (e : EndStep) (jpos : Option Nat) : State := t.modItem c fun i => { i with
    ending := some e, jpos := jpos, endStatus := status, endArea := area, sent := false }
  if s.journaled then
    if admits s .complete then
      mark (s.notePushed c it.seq it.remoteRefs |>.writeRecord { kind := .complete, ctx := c, slotIndex := it.slotIndex, seq := it.seq, statusArea := area }) .record
        (some s.jrn.head)
    else s.journalFull .complete
  else mark (s.releaseItem c it.seq it.remoteRefs) .words none
/-- Steps 3 and 4 done: COMPLETED and the acceptance word (R40, R82). -/
def State.publishEnd (s : State) (c : Nat) (it : Item) : State :=
  (s.modCtx c fun x => { x with completed := it.seq }).writeWord c
/-- The item leaves its channel, and the next begins (R73). -/
def State.leaveItem (s : State) (c : Nat) : State :=
  ((s.modCtx c fun x => { x with items := x.items.drop 1, abortStatus := 65535 }).endWaits.beginNext c).askHeader c
/-- NOTIFY's event (R75). -/
def State.notifyItem (s : State) (c : Nat) (it : Item) : State :=
  if bitOf it.slotFlags 1 then
    if s.postFull schedIsland (bitsOf it.slotFlags 2 4) then s else (s.post schedIsland (bitsOf it.slotFlags 2 4)).leaveItem c
  else s.leaveItem c
/-- One step of R82 or R253: a write is presented, or its answer takes the item on. -/
def State.endStage (s : State) (c : Nat) (it : Item) (e : EndStep) : State :=
  if s.accessFor fun o => o = .ending c then s
  else match e with
    | .record =>
      match it.jpos with
      | some p =>
        if s.inRing p then (s.releaseDurable c it.seq it.remoteRefs p).modItem c fun i => { i with ending := some .words } else s
      | none => s.modItem c fun i => { i with ending := some .words }
    | .words =>
      if it.sent then s.modItem c fun i => { i with words := i.words.drop 1, sent := false }
      else match it.words with
        | w :: _ => s.endWrite c w.address (statusWordBytes w.value it.seq)
        | [] => (s.modItem c fun i => { i with ending := some .status }).endWrite c (it.slotAddr + 0x10) it.endArea
    | .status =>
      if it.sent then (s.modItem c fun i => { i with ending := some .own, sent := false }).endWrite c it.slotAddr [0]
      else s.endWrite c (it.slotAddr + 0x10) it.endArea
    | .own =>
      if it.sent then (s.publishEnd c it).modItem c fun i => { i with ending := some .notify, sent := false }
      else s.endWrite c it.slotAddr [0]
    | .notify => s.notifyItem c it
/-- ITEM_END: an item whose END has completed takes its next step. -/
def State.itemEnd (s : State) (c : Nat) : State :=
  let x := s.ctx c
  match x.items with
  | [] => s
  | it :: _ =>
    if x.state ≠ .running ∨ !it.ended ∨ x.halting ∨ !x.cached then s
    else match it.ending with
      | some e => s.endStage c it e
      | none =>
        if s.journaled && s.chanAccess c then s
        else s.beginEnd c it it.finalArea.1 it.finalArea.2
def execItemEnd (ctx : Nat) (s : State) : Host.Outcome State Fault Refusal := .next (s.itemEnd ctx)

/-! ## HALT_COMPLETE (R132, R138, R151, R249) -/

/-- Pieces or seals of the channel stand at POOL's input, a seal of its is under way, or POOL reads for its POP. -/
def State.poolBusy (s : State) (c : Nat) : Bool :=
  ((s.pool.pieces ++ s.pool.seals ++ s.pool.galleys.filterMap fun e => e.2.sealing.map (·.piece)).any fun p =>
    p.remote.isNone && decide (p.stream.ctx = c)) || (s.item c).any fun it => it.popWait.isSome
/-- The fault at the lowest stream offset (R249). -/
def lowestFault : List FaultRec → Option FaultRec
  | [] => none
  | f :: l => some (l.foldl (fun m g => if g.offset < m.offset then g else m) f)
/-- A PROOF with ALL = 0 whose first mismatch lies below every fault ends as it stands (R138). -/
def OpRun.endsBelow (r : OpRun) (f : FaultRec) : Option Nat :=
  match r.stopped with
  | some d => if r.phase = .data ∧ d < f.offset then some d else none
  | none => none
/-- The run as RESUME finds it; the data phase is repeated from P where its writes failed, and where the result failed that comes
again, after the seals of a PART. -/
def OpRun.restart (r : OpRun) (p : Nat) : OpRun :=
  let q := r.rewind p
  if r.phase = .finished ∨ r.phase = .result then
    { q with phase := match r.op with
      | .part .. => .sealing
      | _ => .data }
  else q
/-- An op whose own writes failed is not done, and what it counted is counted once (R252). -/
def Item.undo (it : Item) : Item :=
  let counted := match it.run, it.popped with
    | some r, _ => if r.phase = .finished then r.counted else 0
    | none, some (d, _) => d.length
    | none, none => 0
  { it with
    opDone := false, delivered := it.delivered - counted
    popOrd := if it.popped.isSome && it.opDone then it.popOrd - 1 else it.popOrd
    opSerial := if it.run.isSome then it.opSerial else none }
/-- The element of a GATHER or SCATTER at a stream offset. -/
def Item.elementAt (it : Item) (p : Nat) : Nat :=
  match it.run with
  | some r => if r.op.list.isSome then r.op.element p else 0
  | none => 0
def Item.isList (it : Item) : Bool :=
  match it.run with
  | some r => r.op.list.isSome
  | none => false
def Item.progress (it : Item) (l : List FaultRec) : Nat :=
  match it.run with
  | some r => r.progress l
  | none => 0
/-- OP_INDEX of a halt or pause: FFh before the block's header is known (R261). -/
def Item.haltIndex (it : Item) (none' : Nat) : Nat := if it.opCount = 0 then none' else it.opIndex
/-- The status area of a halt or pause is written; OWN stays (R83). -/
def State.writeStop (s : State) (c : Nat) (it : Item) (area : List Byte) : State :=
  s.presentWrite (.statusNow c) schedReq (s.ctx c).f.cls (it.slotAddr + 0x10) area
/-- Steps 3 to 5 of R249. -/
def State.reportHalt (s : State) (c : Nat) (it : Item) (faults : List FaultRec) (f : FaultRec) : State :=
  let list := it.isList && !f.signal
  let status := if list then Status.gatherFault else f.status
  let detail := if list then f.status.code else f.detail
  let p := if f.signal then s.doneOffset c else it.progress faults
  let own := faults.any fun g => !g.signal
  let s1 := s.recordFault c { f with status := status } p it.seq
  let s2 := s1.modItem c fun i =>
    let j := if own && i.opDone then i.undo else i
    Item.dropCounter { j with run := if own then j.run.map (·.restart p) else j.run }
  let s3 := s2.modCtx c fun y => { y with state := .halted, halting := false, faults := [], waitOn := none }
  (s3.writeStop c it (statusBytes status.code (it.haltIndex 255) (if list then it.elementAt f.offset else 0) it.blockNo detail)).raise
    .channelHalted
/-- An element before the first fault of a GATHER or SCATTER is not yet written (R150). -/
def OpRun.owesElements (r : OpRun) (f : FaultRec) : Bool :=
  r.op.list.isSome && r.segs.any fun g => g.state ≠ .complete && decide (r.op.element g.lo < r.op.element f.offset)
/-- HALT_COMPLETE, of a context in the cache (R17): what is in flight finishes, then the halt is reported. -/
def State.haltComplete (s : State) (c : Nat) : State :=
  let x := s.ctx c
  if !x.halting ∨ x.state = .aborting ∨ x.items.isEmpty ∨ !x.cached then s
  else
    let s1 := s.carryAll c 32
    let update := (s1.item c).any fun it => it.counterOp.any fun k => decide (k.value ≠ 0) && k.issued
    if s1.chanAccess c || s1.poolBusy c || update then s1
    else match s1.item c, lowestFault (s1.ctx c).faults with
      | some it, some f =>
        if !f.signal && it.run.any fun r => r.owesElements f then s1
        else (match it.run.bind fun r => r.endsBelow f with
         | some d => (s1.modRun c fun r => { r with segs := (r.segs.filter fun g => decide (g.lo ≤ d)).map fun g =>
             if g.state = .ready ∧ g.first.isNone then g else { g with state := .complete } }).modCtx c fun y =>
               { y with halting := false, faults := [] }
         | none => s1.reportHalt c it (s1.ctx c).faults f)
      | _, _ => s1
def execHaltComplete (ctx : Nat) (s : State) : Host.Outcome State Fault Refusal := .next (s.haltComplete ctx)

/-! ## PAUSE and PAUSE_COMPLETE (R250, R251) -/

/-- A read of the segment has been granted, or some of its bytes are here. -/
def State.readsBegun (s : State) (c serial seg : Nat) : Bool :=
  (s.ports.any fun e => e.2.rd.out.any fun a => a.owner = .opRead c serial seg) ||
    (s.fab.remotes.any fun r => r.owner = .opRead c serial seg) ||
    (match s.run c with
     | some r => r.segs.any fun g => decide (g.lo = seg) && (decide (g.lo < g.wrote) ||
         r.buf.any fun e => decide (g.lo ≤ e.1 / 4) && decide (e.1 / 4 < g.hi))
     | none => false)
/-- A request of the owner stands granted, or was answered with an error and comes again. -/
def State.writesBegun (s : State) (o : Owner) : Bool :=
  s.ports.any fun e => (e.2.wr.out.any fun a => a.owner = o) || e.2.wr.queue.any fun r => r.owner = o && r.posted
/-- The request is of a burst, a fetch or a counter update of the channel that has not begun, its lock not yet held (R216, R233,
R250): a parked read of a segment with no read granted, the write of a burst without reads, a fetch, a counter's read; and, while the
channel waits for a domain, whatever stands parked or on the wires. -/
def State.unbegun (s : State) (c : Nat) (r : PortReq) : Bool :=
  let stalled : Bool := match (s.ctx c).waitOn with
    | some (.domain _ _ _) => true
    | _ => false
  match r.owner with
  | .opRead c' n g => decide (c' = c) && (!s.readsBegun c n g || (stalled && !(s.ports.any fun e => e.2.rd.out.any fun a => a.owner = r.owner)))
  | .opWrite c' n _ | .result c' n =>
    let own := (s.run c).all fun q => decide (q.serial = n) && (q.op.reads.isEmpty || q.phase = .finished)
    decide (c' = c) && decide (s.opSerial c = some n) && ((own && !s.writesBegun r.owner) || stalled)
  | .fetch c' => decide (c' = c)
  | .counterRead c' => decide (c' = c) && !r.holds
  | _ => false
/-- What has not begun is withdrawn (R250), a counter update that SCHED has not issued with it. -/
def State.withdrawReads (s : State) (c : Nat) : State :=
  (s.takeBack c fun _ _ r => s.unbegun c r).modItem c fun it =>
    if it.counterOp.any fun k => decide (k.value ≠ 0) && !k.issued then it.dropCounter else it
/-- PAUSE (R248, R250, R251). -/
def State.pause (s : State) (c : Nat) : State :=
  let x := s.ctx c
  let bit (t : State) : State := t.modCtx c fun y => { y with pauseBit := true }
  match x.state with
  | .pausing => s
  | .paused => s
  | .halted => s
  | .aborting => bit s
  | .closed => s
  | .idle => (bit s).modCtx c fun y => { y with state := .paused }
  | _ =>
    match x.items with
    | [] => (bit s).modCtx c fun y => { y with state := .paused, waitOn := none }
    | it :: _ =>
      if it.ending.isSome then bit s
      else ((bit s).withdrawReads c).modCtx c fun y => { y with state := .pausing, waitOn := none }
/-- PAUSE_COMPLETE: what is in flight drains, a locked counter update is applied and its op ends, then P is recorded. -/
def State.pauseComplete (s : State) (c : Nat) : State :=
  let x := s.ctx c
  if x.state ≠ .pausing ∨ x.halting ∨ !x.cached then s
  else
    let s1 := s.carryAll c 32
    match s1.item c with
    | none => s1
    | some it =>
      let update : Bool := match it.counterOp with
        | some k => decide (k.value ≠ 0)
        | none => false
      let ending := it.opDone && (it.signalled || opIs 0x13 (s1.opBytes it))
      if s1.chanAccess c || s1.poolBusy c || update || ending then s1
      else
        let p := it.progress []
        let s2 := s1.recordFault c { status := .paused } p it.seq
        let s3 := s2.modItem c fun i => { i with run := if i.opDone then i.run else i.run.map (·.rewind p), counterOp := none }
        (s3.modCtx c fun y => { y with state := .paused }).writeStop c it
          (statusBytes Status.paused.code (it.haltIndex 0) (it.elementAt p) it.blockNo p)
def execPauseComplete (ctx : Nat) (s : State) : Host.Outcome State Fault Refusal := .next (s.pauseComplete ctx)

/-! ## RESUME (R248, R252) -/

/-- The statuses R245 marks as accepted. -/
def resumable (code : Nat) : Bool :=
  [0x02, 0x10, 0x11, 0x12, 0x13, 0x17, 0x18, 0x19, 0x1B, 0x1C].contains code
/-- The channel is halted after a failed write of its ending steps (R262). -/
def State.endFailed (s : State) (c : Nat) : Bool :=
  let x := s.ctx c
  x.state = .halted && decide (x.record.cause = 8) && (match x.items with
    | it :: _ => it.ending.isSome
    | [] => false)
/-- A flushed unit is forgotten at its producer's RESUME; what the op still has to deliver opens a new unit (assumption log 33). A PUSH
that appended to a flushed packet has no open packet (R188, R189). Destinations that answered nothing of the kind keep their pieces. -/
def State.forgetFlushed (s : State) (c : Nat) : State :=
  match s.item c, s.run c with
  | some it, some r =>
    let gone (m : PushMark) : Bool := decide (m.stream = s.stream c) && decide (m.seq = it.seq) && decide (m.state = .flushed)
    let dead (d : Nat) : Bool := r.flushed.contains d ||
      (s.galleyLocal (r.op.galleyRef d) &&
        s.pool.marks.any fun m => gone m && decide (m.galley = galleyNo (r.op.galleyRef d)) && decide (m.ord = r.ordBase + d))
    let s1 := (s.freeMarks gone).modRun c fun q => { q with
      flushed := [], pieceNo := q.pieceNo.filter fun e => !dead e.1
      segs := q.segs.map fun g => { g with nums := g.nums.filter (fun e => !dead e.1), stored := g.stored.filter fun e => !dead e.1 } }
    (match r.op with
     | .push _ _ _ opn _ packet =>
       if packet ∧ !opn then s1.modItem c fun i => { i with run := none, openPacket := none }
       else if packet then s1.modItem c fun i => { i with packetPieces := 0, packetBytes := 0 }
       else s1
     | _ => s1)
  | _, _ => s
/-- A skip that stopped goes on from its LOOP (R94). -/
def Item.skipAgain (it : Item) : Item :=
  match it.skipAt with
  | some (l, _, _) => { it with opIdx := l, fetch := .none, need := [] }
  | none => it
/-- The channel goes on at the op named in the status area. -/
def State.resumeItem (s : State) (c : Nat) (it : Item) : State :=
  let x := s.ctx c
  let s1 := s.modCtx c fun y => { y with
    state := .running, waitOn := none, fuse := if it.opCount = 0 ∧ it.block = 0 then 0 else y.fuse }
  let s2 := if x.record.status = Status.flushed.code then s1.forgetFlushed c else s1
  let s3 := it.lostWrites.foldl (fun t w => t.present w.1 true w.2) (s2.modItem c fun i => { i.skipAgain with lostWrites := [], lostRemotes := [] })
  let s4 := it.lostRemotes.foldl (fun t r => t.request r.owner r.frame r.offset r.len r.side r.first) s3
  (s4.askFetch c).reissue c
def State.resume (s : State) (c : Nat) : State :=
  let x := s.ctx c
  let s1 := s.modCtx c fun y => { y with pauseBit := false }
  if x.headerHalt then (s1.modCtx c fun y => { y with headerHalt := false, state := .idle }).askHeader c
  else match x.items with
    | [] => (s1.modCtx c fun y => { y with state := .idle }).askHeader c
    | it :: _ =>
      if s.endFailed c then
        (s1.modCtx c fun y => { y with state := if it.endStatus = Status.aborted.code then .aborting else .running }).modItem c fun i =>
          { i with sent := false }
      else s1.resumeItem c it

/-! ## ABORT and ABORT_COMPLETE (R253, R254) -/

/-- ABORT begins: no new access, and the item's open units are aborted units (R469); a header halt is passed over at once (R254). -/
def State.abort (s : State) (c : Nat) : State :=
  let x := s.ctx c
  if x.headerHalt then
    (s.modCtx c fun y => { y with
      headerHalt := false, consumer := y.consumer + 1, producer := if y.producer = y.consumer then y.consumer + 1 else y.producer
      state := if y.pauseBit then .paused else .idle }).askHeader c
  else match x.items with
    | [] => s
    | it :: _ =>
      if it.ending.isSome || x.state = .aborting then s
      else
        ((s.withdrawReads c).markAborted (s.stream c) it.seq).modCtx c fun y => { y with
          state := .aborting, waitOn := none, halting := false, faults := []
          abortStatus := if x.state = .halted || x.state = .paused then x.record.status else 65535 }
/-- A counter update that waits for journal room when the ring is full is given up with its lock (R279); any other
that holds its lock is applied first. -/
def State.dropCounter (s : State) (c : Nat) (k : CounterOp) : State :=
  let a := s.counterAddr k.group k.counter
  match s.portOf a with
  | some p => (s.unlockBlock p (some (beatOf a))).modItem c fun i => { i with counterOp := none }
  | none => s.modItem c fun i => { i with counterOp := none }
/-- Step 2 and 3: open units, deferred words, the open packet, held entries (R207, R253); a RULE in progress is given up. -/
def State.discardItem (s : State) (c : Nat) (it : Item) : State :=
  let s1 := s.pool.galleys.foldl (fun t e => t.abortUnits e.1 (s.stream c) it.seq) s
  let remote : List (Nat × Nat) := (match it.run with
    | some r => r.units.map fun d => (r.op.galleyRef d, r.ordBase + d)
    | none => []) ++ it.openPacket.toList
  let s2 := (remote.eraseDups.filter fun e => !s.galleyLocal e.1).foldl (fun t e => t.notice c 2 e.1 it.seq e.2) s1
  ((s2.ruleLost c).releaseHeld c it.seq).modItem c fun i => { i with words := [], openPacket := none, run := none, counterOp := none, lostWrites := [], lostRemotes := [] }
/-- ABORT_COMPLETE: the drain of step 1, then the steps of R253 one by one. -/
def State.abortComplete (s : State) (c : Nat) : State :=
  let x := s.ctx c
  match x.items with
  | [] => s
  | it0 :: _ =>
    if x.state ≠ .aborting ∨ !x.cached then s
    else match it0.ending with
      | some e => s.endStage c it0 e
      | none =>
        let s1 := s.carryAll c 32
        match s1.item c with
        | none => s1
        | some it =>
          if s1.chanAccess c || s1.poolBusy c then s1
          else
            let full := s1.journaled && !s1.hasPosition .counter
            let wait : Bool := match it.counterOp with
              | some k => decide (k.value ≠ 0) && !(full && k.jpos.isNone)
              | none => false
            if wait then s1
            else
              let s2 := match it.counterOp with
                | some k => if k.value = 0 then s1 else s1.dropCounter c k
                | none => s1
              let area := statusBytes Status.aborted.code (it.haltIndex 255) 0 it.blockNo x.abortStatus
              if s2.journaled && !admits s2 .complete then s2.journalFull .complete
              else ((s2.modCtx c fun y => { y with halting := false, faults := [] }).discardItem c it).beginEnd c it Status.aborted.code area
def execAbortComplete (ctx : Nat) (s : State) : Host.Outcome State Fault Refusal := .next (s.abortComplete ctx)

/-! ## CONTEXT_LOAD (R17, R25) -/

/-- A cached context is idle: no burst, fetch or access in flight, at a port, on a lane or at POOL, no item on its way to
acceptance, and a channel state that waits (R25, R103). -/
def State.cacheIdle (s : State) (c : Nat) : Bool :=
  let x := s.ctx c
  !s.chanAccess c && !(s.accessFor fun o => o = .header c || o = .acceptWord c || o = .statusNow c) && !s.poolBusy c &&
    !((s.run c).any fun r => r.segs.any (·.onLane)) && x.accepting.isEmpty && !x.halting &&
    (x.state = .closed || x.state = .idle || x.state = .waiting || x.state = .paused || x.state = .halted)
def State.cachedCount (s : State) : Nat := (s.ctxs.filter fun e => e.2.cached).length
/-- The context enters the cache: NEXT starts, the doorbells that waited for it are judged in their order, and its channel goes on
where it stood. -/
def State.loadCtx (s : State) (c : Nat) : State :=
  (((s.modCtx c fun x => { x with cached := true, next256 := 0 }).judgeEarly c).askHeader c).askFetch c
/-- A context that a doorbell names, or whose wait has ended, is read in; a full cache first gives up an idle context.
While CTX's clock is absent the read hangs (R347). -/
def State.contextLoad (s : State) (c victim : Nat) : State :=
  let x := s.ctx c
  if x.state = .closed ∨ x.cached ∨ s.unitWaits ctxIsland then s
  else if s.cachedCount < 4096 then s.loadCtx c
  else if (s.ctx victim).cached ∧ s.cacheIdle victim then (s.modCtx victim fun y => { y with cached := false }).loadCtx c
  else s
def execContextLoad (ctx victim : Nat) (s : State) : Host.Outcome State Fault Refusal := .next (s.contextLoad ctx victim)

/-! ## CHANNEL_COMMAND (R248) -/

/-- Commands are accepted in FLOW, KEEP, TWIN and DRAIN, to a channel that is not CLOSED. -/
def State.commandable (s : State) (c : Nat) : Bool :=
  (s.ctl.mode.traffic || s.ctl.mode = .drain) && (s.ctx c).state ≠ .closed
def State.pauseAct (s : State) (c : Nat) : Reply := if s.commandable c then .ok (s.pause c) else .refuse abortState
def State.resumeAct (s : State) (c : Nat) : Reply :=
  let x := s.ctx c
  let ok := x.state = .paused || (x.state = .halted && (x.headerHalt || s.endFailed c || resumable x.record.status))
  if s.commandable c && ok then .ok (s.resume c) else .refuse abortState
def State.abortAct (s : State) (c : Nat) : Reply :=
  let x := s.ctx c
  let bad := x.state = .idle || (x.state = .paused && x.items.isEmpty) || s.endFailed c
  if s.commandable c && !bad then .ok (s.abort c) else .refuse abortState

end Sys2Proof.Machine
end

