-- ==== Sys2Proof/Machine/Journal.lean ====
section
/-! DEFINITION. JRN: the two images (R283), the scan (R291), the reclaim (R278), retries (R263, R270, R282), and the twin on
both sides (R284 to R290, R295). -/
namespace Sys2Proof.Machine

/-! ## The images (R283, R391) -/

/-- The 128 bytes of a context (R391); WORKING is open (assumption log 11). -/
def Ctx.image (x : Ctx) (working : Nat → Byte) : List Byte :=
  leBytes 8 x.f.ringBase ++ leBytes 8 x.f.acceptAddr ++ leBytes 4 x.f.ringSize ++ leBytes 2 x.f.slotSize ++ leBytes 2 x.f.group ++
    leBytes 1 x.f.windowSet ++ leBytes 1 x.f.cls ++ leBytes 1 x.f.share ++ leBytes 1 0 ++ leBytes 2 x.f.adoptNode ++ leBytes 2 0 ++
    leBytes 4 x.f.adoptEpoch ++ leBytes 28 0 ++ leBytes 8 x.accepted ++ leBytes 8 x.completed ++ leBytes 4 x.producer.toNat ++
    leBytes 4 x.consumer.toNat ++ leBytes 2 x.refused ++ leBytes 1 x.state.code ++ leBytes 5 0 ++ (List.range 32).map working
def State.selCtx (s : State) : Nat := s.obj 0xC0FF 0
/-- Write a field of the context window. -/
def CtxFields.write (f : CtxFields) (sub v : Nat) : CtxFields :=
  match sub with
  | 1 => { f with ringBase := v }
  | 2 => { f with acceptAddr := v }
  | 3 => { f with ringSize := v }
  | 4 => { f with slotSize := v }
  | 5 => { f with group := v }
  | 6 => { f with windowSet := v }
  | 7 => { f with cls := v }
  | 8 => { f with share := v }
  | 9 => { f with adoptNode := if v = 0xFFFF then v else v % 4096 }
  | _ => { f with adoptEpoch := v }
/-- The object is a register of a legacy slot. -/
def isSlotReg (i sub : Nat) : Bool := decide (0x8000 ≤ i) && decide (i < 0x8040) && decide (2 ≤ sub)
/-- A value of an RW object is in force. -/
def State.inForce (s : State) (i sub v : Nat) : State :=
  if i = 0x2001 then { s with ctl := { s.ctl with drainTarget := v } }
  else if i = 0xC000 then s.modCtx s.selCtx fun x => { x with f := x.f.write sub v }
  else if isSlotReg i sub then s.writeSlot (i - 0x8000) ((sub - 2) * 8) v
  else s.setObj i sub v
/-- A value is to come into force when the response of its write returns (R381). -/
def State.comingDue (s : State) (i sub v : Nat) : State := { s with ctl := { s.ctl with acted := true, due := some (i, sub, v) } }
/-- The values as they are to be once that response has returned: JRN's images, which precede it, hold them (R283). -/
def State.withDue (s : State) : State := match s.ctl.due with
  | some (i, sub, v) => if s.ctl.acted then s.inForce i sub v else s
  | none => s
def State.ctxImage (s : State) (c : Nat) : List Byte := (s.ctx c).image (Config.workingByte s.free)
def ctxImageAddr (s : State) (c : Nat) : Nat := s.obj 0x9004 0 / 2 ^ 20 * 2 ^ 20 + c * 0x80
/-- JRN writes a context's entry of the context image, while a journal is configured. -/
def State.writeCtxImage (s : State) (c : Nat) : State :=
  if ringRecords s = 0 then s else s.nextFree.upkeepWrite (ctxImageAddr s c) (s.withDue.ctxImage c)
/-- The fields and marks of an entry; `closed` where its STATE says so. Neither R391's entry nor R293 keeps the stop of an exhausted
stream, so it does not outlive a reset: the item is met again, and refused again, at the next doorbell (DESIGN CHOICE: R38 does not say,
assumption log 88). -/
def ctxOfImage (b : List Byte) : Ctx :=
  { f := { ringBase := fieldAt b 0 8, acceptAddr := fieldAt b 8 8, ringSize := fieldAt b 0x10 4, slotSize := fieldAt b 0x14 2,
           group := fieldAt b 0x16 2 % 4096, windowSet := fieldAt b 0x18 1, cls := fieldAt b 0x19 1 % 8, share := fieldAt b 0x1A 1,
           adoptNode := fieldAt b 0x1C 2, adoptEpoch := fieldAt b 0x20 4 }
    accepted := fieldAt b 0x40 8, completed := fieldAt b 0x48 8
    producer := BitVec.ofNat 32 (fieldAt b 0x54 4), consumer := BitVec.ofNat 32 (fieldAt b 0x54 4)
    refused := fieldAt b 0x58 2
    state := if fieldAt b 0x5A 1 = 0 then .closed else .idle }

/-- An entry of the configuration image: index, subindex, value bytes. -/
abbrev ImageEntry := Nat × Nat × List Byte
def portCase (t : Tab Byte) : List Byte := (List.range 512).map fun i => Tab.get (fun _ => 0x80) t i
def proposedBytes (s : State) : List Byte := (List.range imageSize).map s.prot.proposedByte
def activeBytes (s : State) : List Byte := (List.range imageSize).map s.prot.activeByte
/-- Every RW, RWC and RWS object whose value differs from its default, DOMAIN objects included, and ACTIVE (R404). A node
set comes behind the NODE_SET_SELECT that names it (assumption log 22). -/
def State.configEntries (s : State) : List ImageEntry :=
  (s.dict.values.filterMap fun e => match objDef (e.1 / 256) (e.1 % 256) with
    | some o => if o.cls = .ro ∨ o.cls = .wo then none else some (e.1 / 256, e.1 % 256, leBytes o.type.size e.2)
    | none => none) ++
  (s.sched.slots.flatMap fun e =>
    let x := e.2
    if s.slotOwner e.1 = 1 then
      [(0x8000 + e.1, 2, leBytes 8 x.src), (0x8000 + e.1, 3, leBytes 8 x.dst), (0x8000 + e.1, 4, leBytes 4 x.count),
       (0x8000 + e.1, 5, leBytes 8 x.ctrl)].filter fun y => y.2.2.any fun b => b ≠ 0
    else []) ++
  (s.dict.nodeSets.flatMap fun e => [(0x6200, 0, leBytes 1 e.1), (0x6201, 0, e.2)]) ++
  (if s.dict.nodeSets.isEmpty then [] else [(0x6200, 0, leBytes 1 (s.obj 0x6200 0))]) ++
  (s.ports.filterMap fun e => if e.2.caseEdit.isEmpty then none else some (0x4040, e.1 + 1, portCase e.2.caseEdit)) ++
  (if s.ctl.drainTarget = 1 then [] else [(0x2001, 0, leBytes 1 s.ctl.drainTarget)]) ++
  (if s.prot.proposed.isEmpty then [] else [(0x5100, 0, proposedBytes s)]) ++
  (if s.prot.active.isEmpty then [] else [(0x5110, 0, activeBytes s)])
def entryBytes (e : ImageEntry) : List Byte :=
  leBytes 2 e.1 ++ leBytes 1 e.2.1 ++ leBytes 1 0 ++ leBytes 4 e.2.2.length ++ e.2.2 ++
    List.replicate ((e.2.2.length + 7) / 8 * 8 - e.2.2.length) 0
/-- The configuration image's bytes, its CRC last. -/
def State.configImage (s : State) : List Byte :=
  let b := s.configEntries.flatMap entryBytes ++ leBytes 8 0
  b ++ leBytes 4 (crc32c b)
/-- JRN rewrites the configuration image, while a journal is configured. -/
def State.writeConfigImage (s : State) : State :=
  if ringRecords s = 0 then s else s.upkeepWrite (s.obj 0x9003 0 / 4096 * 4096) s.withDue.configImage
/-- Read a configuration image: its entries, where its CRC checks. -/
def readImage (s : State) (base : Nat) : Nat → Nat → Option (List ImageEntry)
  | 0, _ => none
  | n + 1, off =>
    let i := s.numAt (base + off) 2
    let len := s.numAt (base + off + 4) 4
    if i = 0 then
      if s.numAt (base + off + 8) 4 = crc32c (s.bytesAt base (off + 8)) then some [] else none
    else if 2 ^ 20 < off + 8 + len then none
    else (readImage s base n (off + 8 + (len + 7) / 8 * 8)).map fun r =>
      (i, (s.byteAt (base + off + 2)).toNat, s.bytesAt (base + off + 8) len) :: r
/-- Restore one entry. -/
def State.restoreEntry (s : State) (e : ImageEntry) : State :=
  let v := leNat e.2.2
  let l := (List.range e.2.2.length).zip e.2.2
  if e.1 = 0x6201 then
    { s with dict := { s.dict with nodeSets := Tab.put (fun _ => []) s.dict.nodeSets (s.obj 0x6200 0) e.2.2 } }
  else if e.1 = 0x2001 then { s with ctl := { s.ctl with drainTarget := v } }
  else if e.1 = 0x4040 then
    s.setPort (e.2.1 - 1) { s.port (e.2.1 - 1) with caseEdit := Tab.putAll (fun _ => 0x80) [] l }
  else if e.1 = 0x5100 then { s with prot := { s.prot with proposed := Tab.putAll (fun _ => 0) [] l } }
  else if e.1 = 0x5110 then { s with prot := { s.prot with active := Tab.putAll activeDefault [] l } }
  else if 0x8000 ≤ e.1 ∧ e.1 < 0x8040 ∧ 2 ≤ e.2.1 then
    s.setSlot (e.1 - 0x8000) ((s.slot (e.1 - 0x8000)).writeReg ((e.2.1 - 2) * 8) v)
  else s.setObj e.1 e.2.1 v

/-! ## The scan (R291) -/

/-- The valid records from a position on, and the first position whose record is not valid. -/
def scanFrom (rd : Nat → List Byte) : Nat → Nat → Nat → Nat → List Record × Nat
  | 0, p, _, _ => ([], p)
  | n + 1, p, ceiling, last =>
    match recordOf (rd p) with
    | none => ([], p)
    | some r =>
      let opens := decide (r.kind = .epoch) && decide (r.event = 1) && decide (r.epoch = ceiling + 1)
      if r.pos ≠ p ∨ r.epoch < last ∨ (ceiling < r.epoch ∧ !opens) then ([], p)
      else
        let t := scanFrom rd n (p + 1) (max ceiling r.epoch) r.epoch
        (r :: t.1, t.2)
def ringBytes (s : State) (p : Nat) : List Byte := s.bytesAt (recordAddr s p) 64

/-! ## Shipping (R285, R288, R290) -/

/-- The bytes of a record the log holds. -/
def State.recordBytes (s : State) (p : Nat) : List Byte :=
  match (s.jrn.inFlight ++ s.jrn.log).find? fun r => r.pos = p with
  | some r => r.bytes
  | none => ringBytes s p
/-- Ship the records from a position up to, not including, another, eight to a shipment. -/
def State.ship (s : State) (first upTo : Nat) (truncate : Bool) : State :=
  (chunks 8 (upTo - first)).foldl (fun t c =>
    t.sendFrame (shipment t ((List.range c.2).map fun i => s.recordBytes (first + c.1 + i))
      (truncate && decide (first + c.1 + c.2 = upTo)))) s

/-! ## JOURNAL_RECLAIM (R273, R278) -/

/-- The item is accepted, and its COMPLETE record has not entered the ring. -/
def State.itemLive (s : State) (c seq : Nat) : Bool :=
  let x := s.ctx c
  (x.accepting.any fun e => e.seq = seq) ||
    x.items.any fun it => decide (it.seq = seq) && (match it.jpos with
      | some p => !s.inRing p
      | none => true)
/-- POOL is to clear a mark in the mark table (R174, R178). -/
def State.clearingMarks (s : State) : Bool :=
  s.pool.jobs.any fun j => match j with
    | .write a bs => decide (s.markAddr 1 ≤ a) && decide (a < s.markAddr (s.obj 0x7004 0 + 1)) && decide (bs = leBytes 32 0)
    | _ => false
/-- A COMPLETE's item has steps, its word or its releases to come, or POOL has marks to clear (R278). -/
def State.endLive (s : State) (c seq : Nat) : Bool :=
  ((s.ctx c).items.any fun it => it.seq = seq) || (s.jrn.releases.any fun r => decide (r.ctx = c) && decide (r.seq = seq)) ||
    (s.ctx c).wordRetry || (s.ctx c).wordDirty || s.clearingMarks || s.accessFor fun o => o = .acceptWord c || o = .notice c
/-- What the reclaim point does at a record: pass it, carry it, or wait for it. -/
inductive Reclaim where
  | pass | carry | wait
  deriving DecidableEq, Repr
def State.reclaimOf (s : State) (r : Record) : Reclaim :=
  match r.kind with
  | .accept => if !r.void && s.itemLive r.ctx r.seq then .carry else .pass
  | .counter =>
    if s.jrn.settles.any fun e => e.pos = r.pos then .wait
    else if s.itemLive r.ctx r.seq then
      if (s.ctx r.ctx).items.any fun it => decide (it.seq = r.seq) && (match it.counterOp with
          | some k => decide (k.ord = r.ord) && decide (k.value ≠ 0)
          | none => false) then .wait else .carry
    else .pass
  | .complete => if s.endLive r.ctx r.seq then .wait else .pass
  | .flush => if (s.galley r.galley).state ≠ .absent ∧ (s.galley r.galley).jpos ≤ r.pos then .wait else .pass
  | .epoch =>
    if r.event = 1 ∧ !((s.jrn.log ++ s.jrn.inFlight).any fun q => q.kind = .epoch && decide (q.event = 1) && decide (r.pos < q.pos))
    then .carry else .pass
/-- The record is the last of its context in the ring. -/
def State.lastOfCtx (s : State) (r : Record) : Bool :=
  decide (r.kind = .accept || r.kind = .complete || r.kind = .counter) &&
    !((s.jrn.log ++ s.jrn.inFlight).any fun q => (q.kind = .accept || q.kind = .complete || q.kind = .counter) &&
      decide (q.ctx = r.ctx) && decide (r.pos < q.pos))
/-- The copy of the record at the reclaim point is written (R278). -/
def State.copyWritten (s : State) : Bool :=
  match s.jrn.copy with
  | some p => s.inRing p
  | none => false
/-- The reclaim point moves past one record; its context's image entry is written before its last record goes. -/
def State.passRecord (s : State) (r : Record) : State :=
  let s1 := if s.lastOfCtx r then s.writeCtxImage r.ctx else s
  let s2 : State := { s1 with jrn := { s1.jrn with
    reclaim := r.pos + 1, copy := none, pushed := s1.jrn.pushed.filter fun e => e.pos ≠ r.pos } }
  if ringRecords s / 16 ≤ s2.jrn.reclaim - s2.jrn.tail then
    let e := s2.jrn.reclaim
    ({ s2 with jrn := { s2.jrn with tail := e, log := s2.jrn.log.filter fun q => decide (e ≤ q.pos) } } :
      State).writeAnchor
  else s2
/-- A copy of a live record is admitted as a COUNTER is, so that it takes no position held back for a COMPLETE, and one of an
EPOCH as an EPOCH is (R279; assumption log 84). -/
def Record.copyKind (r : Record) : RecKind := if r.kind = .epoch then .epoch else .counter
/-- JOURNAL_RECLAIM: one record at the reclaim point. A carried copy differs from its original in RFLAGS, EPOCH, JPOS and
CRC only, and the reclaim point passes the original once the copy is written (R278). -/
def State.journalReclaim (s : State) : State :=
  if s.unitWaits jrnIsland then s
  else match s.jrn.log.find? fun r => r.pos = s.jrn.reclaim with
  | none => s
  | some r =>
    if s.jrn.copy.isSome then (if s.copyWritten then s.passRecord r else s)
    else match s.reclaimOf r with
    | .pass => s.passRecord r
    | .wait => s
    | .carry =>
      if admits s r.copyKind then
        let t := s.issueRecord { r with carried := true }
        { t with jrn := { t.jrn with copy := some s.jrn.head } }
      else s.journalFull r.copyKind
def execJournalReclaim (s : State) : Host.Outcome State Fault Refusal :=
  .next (if s.ctl.mode = .recover then s else s.journalReclaim)

/-! ## Retries (R263, R270, R282) -/

/-- JRN issues its failed writes again (R270). -/
def State.journalRetry (s : State) : State :=
  if s.unitWaits jrnIsland then s
  else (s.jrn.failed.filter fun r => !r.posted).foldl (fun t r => match r.beats with
    | b :: _ => (match t.portOf b.addr with
      | some p => t.present p true r
      | none => t)
    | [] => t) { s with jrn := { s.jrn with failed := s.jrn.failed.map fun r => { r with posted := true } } }
def execJournalWriteRetry (s : State) : Host.Outcome State Fault Refusal := .next s.journalRetry
/-- SCHED writes an acceptance word again (R263). -/
def execAcceptWordRetry (ctx : Nat) (s : State) : Host.Outcome State Fault Refusal :=
  .next (if (s.ctx ctx).wordRetry then s.writeWord ctx else s)
/-! ## The twin, as the shipper (R285 to R288) -/

/-- The mode or the stage in which records are shipped. -/
def State.shipping (s : State) : Bool := s.ctl.rulesOf = .twin || decide (s.ctl.recoverStage = .shipping ∨ s.ctl.recoverStage = .opening)
/-- A record is issued that the twin point does not cover. -/
def State.unshipped (s : State) : Bool := s.shipping && (!s.twin.held || decide (s.twin.point + 1 < s.jrn.head))
/-- A twin point arrives (R285, R286): it never falls; covered publications and releases may proceed. -/
def State.twinPoint (s : State) (src point : Nat) : State :=
  if src ≠ s.obj 0x9020 0 % 4096 ∨ !s.shipping ∨ s.jrn.head ≤ point ∨ (s.twin.held ∧ point < s.twin.point) then s
  else
    let covers := !s.twin.held || decide (s.twin.point < point)
    ({ s with twin := { s.twin with
      point := point, held := true
      state := if covers then 1 else s.twin.state
      unreachableRaised := if covers then false else s.twin.unreachableRaised } } : State).releaseWaiting
def execTwinPoint (src point : Nat) (s : State) : Host.Outcome State Fault Refusal := .next (s.twinPoint src point)
/-- The lowest position to ship again: behind the twin point; without one, in RECOVER from the anchor's TAIL (R294), else from the last
EPOCH OPEN record. -/
def State.shipFrom (s : State) : Nat :=
  if s.twin.held then s.twin.point + 1
  else if s.ctl.mode = .recover then s.jrn.tail
  else (s.jrn.log ++ s.jrn.inFlight).foldl (fun m r => if r.kind = .epoch ∧ r.event = 1 then max m r.pos else m) s.jrn.tail
/-- TWIN_ACK_TIMEOUT (R288): the twin is unreachable; JRN ships again. -/
def State.ackTimeout (s : State) : State :=
  if s.unshipped then
    ({ s with twin := { s.twin with state := 2 } } : State).ship s.shipFrom s.jrn.head (s.ctl.recoverStage = .shipping || s.ctl.recoverStage = .opening && s.ctl.mode = .recover)
  else s
def execTwinAckTimeout (s : State) : Host.Outcome State Fault Refusal := .next s.ackTimeout
/-- The twin is unreachable (R288): a timeout has passed on an outstanding record, or no route leads to it. -/
def State.twinUnreachable (s : State) : Bool :=
  s.shipping && (decide (s.twin.state = 2) || !s.routed (s.obj 0x9020 0 % 4096))
/-- TWIN_LOSS_LIMIT (R67, R288, R294): the event, once per break. -/
def State.twinLost (s : State) : Bool :=
  s.twinUnreachable || decide (s.ctl.recoverStage = .handshake ∧ (s.ctl.mode = .recover ∨ s.ctl.mode = .drain))
def State.lossLimit (s : State) : State :=
  if s.twinLost ∧ s.obj 0x9023 0 ≠ 0 ∧ !s.twin.unreachableRaised then
    ({ s with twin := { s.twin with unreachableRaised := true } } : State).raise .twinUnreachable
  else s
def execTwinLossLimit (s : State) : Host.Outcome State Fault Refusal := .next s.lossLimit
/-- The handshake of R284: node, the epoch to be opened, RING_RECORDS. -/
def State.sendHello (s : State) : State :=
  ({ s with twin := { s.twin with answer := none } } : State).sendFrame
    { type := 0x1C, cls := s.obj 0x4031 0, vl := 1, dest := s.obj 0x9020 0 % 4096
      payload := leBytes 2 s.nodeNum ++ leBytes 2 0 ++ leBytes 4 (s.jrn.epoch + 1) ++ leBytes 4 (ringRecords s) ++ leBytes 4 0 }
/-- The twin answers the handshake (R284). -/
def State.twinReady (s : State) (src : Nat) (ready valid : Bool) (point : Nat) : State :=
  if src = s.obj 0x9020 0 % 4096 ∧ s.ctl.recoverStage = .handshake then
    { s with twin := { s.twin with answer := some (ready, valid, point) } }
  else s
def execTwinReady (src : Nat) (ready shadowValid : Bool) (point : Nat) (s : State) : Host.Outcome State Fault Refusal :=
  .next (s.twinReady src ready shadowValid point)

/-! ## The twin, as the keeper of a shadow (R284, R289, R290) -/

/-- The shadow is served for a node (R289). -/
def State.serves (s : State) (src : Nat) : Bool :=
  decide (s.obj 0x9030 0 < 4096) && decide (s.obj 0x9030 0 = src) && decide (s.obj 0x9032 0 ≠ 0) && s.ctl.mode ≠ .halt &&
    s.ctl.mode ≠ .survey && decide (s.twin.takeover = 0)
/-- TWIN_HELLO (R284). -/
def State.twinHello (s : State) (src tag epoch records : Nat) : State :=
  let ready := s.serves src && decide (records ≤ s.obj 0x9032 0)
  let s1 : State := if ready then { s with twin := { s.twin with shadowEpoch := epoch, shadowOpen := 0 } } else s
  if s.ctl.mode = .halt then s
  else s1.sendFrame { type := 0x1D, vl := 2, dest := src, tag := tag
                      word := boolBit ready 0 + boolBit (s.serves src && s.twin.shadowHeld) 1, payload := leBytes 8 s.twin.shadowPoint ++ leBytes 8 0 }
def execTwinHello (src tag epoch records : Nat) (s : State) : Host.Outcome State Fault Refusal := .next (s.twinHello src tag epoch records)
/-- The shadow anchor (R289), in the layout of R272 with the shadow's own base and size (assumption log 23). -/
def shadowAnchorBytes (s : State) (tail : Nat) : List Byte :=
  let b := leBytes 4 0x4A524E31 ++ leBytes 4 s.twin.shadowEpoch ++ leBytes 8 (shadowBase s) ++ leBytes 4 (s.obj 0x9032 0) ++ leBytes 1 1 ++
    leBytes 1 4 ++ leBytes 2 0 ++ leBytes 8 tail ++ leBytes 16 0 ++ leBytes 2 0 ++ leBytes 10 0
  b ++ leBytes 4 (crc32c b)
def State.keepTail (s : State) (tail : Nat) : State :=
  let s1 : State := { s with twin := { s.twin with shadowTail := tail } }
  if s.obj 0x9032 0 / 16 ≤ tail - s.twin.shadowAnchorTail ∨ tail < s.twin.shadowAnchorTail ∨ !s.twin.shadowHeld then
    ({ s1 with twin := { s1.twin with shadowAnchorTail := tail } } : State).presentWrite .journal jrnReq (s.obj 0x4031 0) (shadowBase s - 0x40)
      (shadowAnchorBytes s tail)
  else s1
/-- The positions with a shadow write that is not answered. -/
def State.shadowsOut (s : State) : List Nat :=
  let pos (o : Owner) : Option Nat := match o with
    | .shadow p => some p
    | _ => none
  (s.owners.filterMap pos ++ s.jrn.failed.filterMap fun r => pos r.owner).eraseDups
/-- TRUNCATE (R290): stored records above the shipment's last are discarded, their slots cleared at the ports, those whose write is on
its way once it is answered. -/
def State.truncateShadow (s : State) (last : Nat) : State :=
  let late := s.shadowsOut.filter fun p => decide (last < p)
  let gone := (((List.range (s.twin.shadowPoint - last)).map fun i => last + 1 + i) ++ s.twin.stored.filter fun p => decide (last < p)).filter
    fun p => !late.contains p
  let s1 := gone.foldl (fun t p => t.presentWrite (.clear p) jrnReq (s.obj 0x4031 0) (shadowAddr s p) (leBytes 64 0)) s
  { s1 with twin := { s1.twin with
    shadowPoint := min last s1.twin.shadowPoint, stored := s1.twin.stored.filter fun p => decide (p ≤ last)
    gone := (s1.twin.gone ++ late).eraseDups } }
/-- Before the shadow holds a record, the first position shipped is where its point will begin. -/
def State.expectShadow (s : State) (pos : Nat) : State :=
  if s.twin.shadowHeld then s
  else
    let begun := !s.twin.stored.isEmpty || !s.jrn.failed.isEmpty || s.accessFor fun o => match o with
      | .shadow _ => true
      | _ => false
    { s with twin := { s.twin with shadowPoint := if begun then min pos s.twin.shadowPoint else pos } }
/-- TWIN_SHIP (R285, R289, R290): the records are written at their places, behind the clearing of a TRUNCATE; their write
responses move the point. -/
def State.twinShip (s : State) (src tag tail : Nat) (truncate : Bool) (records : List (List Byte)) : State :=
  if !s.serves src ∨ records.isEmpty then s
  else
    let s0 := s.expectShadow (fieldAt (records.headD []) 8 8)
    let s1 := s0.keepTail tail
    let s2 := if truncate && s1.twin.shadowHeld then s1.truncateShadow (fieldAt (records.getLastD []) 8 8) else s1
    ({ s2 with twin := { s2.twin with waiting := s2.twin.waiting ++ [(tag, records)] } } : State).storeWaiting
def execTwinShip (src tag tail : Nat) (truncate : Bool) (records : List (List Byte)) (s : State) : Host.Outcome State Fault Refusal :=
  .next (s.twinShip src tag tail truncate records)
/-- The positions above a point whose records stand in the shadow's slots, beyond what the scan reads (R290). -/
def State.shadowBeyond (s : State) (point : Nat) : List Nat :=
  let n := s.obj 0x9032 0
  let base := shadowBase s
  ((s.mem.filter fun e => decide (base ≤ e.1) && decide (e.1 < base + n * 64)).map fun e => (e.1 - base) / 64).eraseDups.filterMap fun k =>
    match recordOf (s.bytesAt (base + k * 64) 64) with
    | some r => if point < r.pos ∧ r.pos % n = k then some r.pos else none
    | none => none
/-- After a reset of its own the twin finds the shadow from its anchor (R289), and what is stored beyond a hole in it. -/
def State.findShadow (s : State) : State :=
  let b := s.bytesAt (shadowBase s - 0x40) 64
  if s.obj 0x9032 0 = 0 ∨ s.twin.shadowHeld ∨ fieldAt b 0 4 ≠ 0x4A524E31 ∨ fieldAt b 0x3C 4 ≠ crc32c (b.take 0x3C) then s
  else
    let r := scanFrom (fun p => s.bytesAt (shadowAddr s p) 64) (s.obj 0x9032 0) (fieldAt b 0x18 8) (fieldAt b 4 4) 0
    if r.1.isEmpty then s
    else { s with twin := { s.twin with
      shadowHeld := true, shadowPoint := r.2 - 1, stored := s.shadowBeyond (r.2 - 1), shadowTail := fieldAt b 0x18 8, shadowAnchorTail := fieldAt b 0x18 8
      shadowEpoch := fieldAt b 4 4
      shadowOpen := ((r.1.filter fun q => q.kind = .epoch && decide (q.event = 1) && !q.carried).getLast?.map (·.epoch)).getD 0 } }

end Sys2Proof.Machine
end

