-- ==== Sys2Proof/Machine/Dict.lean ====
section
/-! DEFINITION. The object dictionary: values read (R376, R377, R382), ranges (R388, R392), staging and commit (R19, R383 to
R386, R419), keys and protection changes (R399 to R404), the context window (R390 to R393), the wait snapshot (R396). -/
namespace Sys2Proof.Machine

/-! ## Values read -/

def State.selGalley (s : State) : Nat := s.obj 0x7010 0
def GalleyState.code : GalleyState → Nat
  | .absent => 0
  | .active => 1
  | .rebuilding => 2
  | .deleting => 3
/-- The state byte of an island (R337). -/
def Island.byte (i : Island) : Nat :=
  boolBit i.clockPaused 5 + boolBit i.fault 4 + boolBit i.retired 3 + boolBit i.gated 2 + boolBit i.inReset 1 + boolBit i.clockPresent 0
def State.lanesIn (s : State) (v : Nat) : Nat := ((List.range 26).filter fun l => s.lane l = v).length
def maskOf (n : Nat) (f : Nat → Bool) : Nat := (List.range n).foldl (fun m i => m + boolBit (f i) i) 0
/-- The route entry of R322. -/
def RouteEntry.word (r : RouteEntry) : Nat :=
  r.primary + r.alternate * 16 + r.hops * 256 + boolBit r.onAlt 16 + boolBit r.primaryValid 17 + boolBit r.altValid 18
/-- PROTECT_STATE (R407). -/
def Protect.state (p : Protect) : Nat := if p.locked then 3 else if p.applying then 2 else if p.nonce.isSome then 1 else 0
/-- A field of the selected galley's status (R194). -/
def Galley.field (y : Galley) (sub : Nat) : Nat :=
  match sub with
  | 1 => if y.poppable.isEmpty then 1 else 0
  | 2 => y.state.code
  | 3 => y.poppable.length
  | 4 => y.held.length
  | 5 => y.cellCount - y.freshCells
  | 6 => y.underruns
  | 7 => y.mismatches
  | _ => y.flushes
/-- A field of the selected context (R391, R408). -/
def Ctx.field (x : Ctx) (sub : Nat) : Nat :=
  match sub with
  | 1 => x.f.ringBase
  | 2 => x.f.acceptAddr
  | 3 => x.f.ringSize
  | 4 => x.f.slotSize
  | 5 => x.f.group
  | 6 => x.f.windowSet
  | 7 => x.f.cls
  | 8 => x.f.share
  | 9 => x.f.adoptNode
  | 0xA => x.f.adoptEpoch
  | 0xB => x.accepted
  | 0xC => x.completed
  | 0xD => x.producer.toNat
  | 0xE => x.consumer.toNat
  | _ => x.refused
/-- A field of the fault record C010h (R267). -/
def FaultRecord.field (r : FaultRecord) (sub : Nat) : Nat :=
  match sub with
  | 1 => r.status
  | 2 => r.cause
  | 3 => r.port
  | 4 => r.attempts
  | 5 => r.address
  | 6 => r.progress
  | _ => r.seq
/-- A field of POSTED_FAULTS' record (R468). -/
def Sched.posted' (x : Sched) (sub : Nat) : Nat :=
  match sub with
  | 1 => x.postedFaults
  | 2 => x.postedAddress
  | 3 => x.postedContext
  | _ => x.postedSeq
/-- A register of a dictionary-owned slot (R441). -/
def Slot.field (x : Slot) (sub : Nat) : Nat := x.readReg ((sub - 2) * 8)
/-- A field of the anchor in memory (R298), 0 where none has been written. -/
def State.anchorField (s : State) (off n : Nat) : Nat :=
  if s.numAt (anchorAddr s) 4 = 0x4A524E31 then s.numAt (anchorAddr s + off) n else 0
/-- The active value of an object that is neither DOMAIN nor STR; a RECORD's subindex 00h reads its highest (R376), but 9041h:00
TAKEOVER_STATE, as R298 tables it (assumption log 27). -/
def State.readObj (s : State) (i sub : Nat) : Nat :=
  if sub = 0 ∧ 0 < topSub i ∧ i ≠ 0x9041 then topSub i
  else match i with
  | 0x1011 => s.ctl.discards
  | 0x1012 => s.ctl.lastAbort
  | 0x2000 => s.ctl.mode.code
  | 0x2001 => s.ctl.drainTarget
  | 0x2002 => s.ctl.modeCause
  | 0x2003 => s.ctl.drainHeld
  | 0x2F02 => min u16Max (s.dict.staged.length + s.dict.stagedSets.length)
  | 0x2F03 => s.dict.commits
  | 0x3000 => (s.island (sub - 1)).byte
  | 0x3002 => (s.island (sub - 1)).faults
  | 0x3101 => (s.port (sub - 1)).rd.retired.length
  | 0x3102 => s.sched.posted' sub
  | 0x3131 => maskOf 8 fun p => (s.port p).qack
  | 0x3304 => (s.stashPort (sub - 1)).fallbacks
  | 0x3401 => (s.island (sub - 1)).testStatus
  | 0x3402 => s.lane (sub - 1)
  | 0x3403 => s.lanesIn 0
  | 0x3404 => s.lanesIn 1
  | 0x3501 => s.scrub.corrected
  | 0x3502 => s.scrub.uncorrected
  | 0x3503 => s.scrub.address
  | 0x4043 => maskOf 8 fun p => (s.port p).casePending
  | 0x4050 => (s.port (sub - 1)).parkedCount
  | 0x5012 => if (if sub = 1 then s.prot.keyA else s.prot.keyB).isSome then 1 else 0
  | 0x5105 => s.prot.refusals
  | 0x5106 => s.prot.state
  | 0x5112 => s.prot.changes
  | 0x6000 => s.straps.nodeSerial
  | 0x6003 => s.fab.nodeState
  | 0x6004 => s.fab.nodeId.getD 65535
  | 0x6006 => s.fab.rootSerial.getD s.straps.nodeSerial
  | 0x6007 => s.fab.adverts.length
  | 0x6011 => (s.route (s.obj 0x6010 0)).word
  | 0x6050 => (s.link (sub - 1)).state
  | 0x6052 => (s.link (sub - 1)).crcErrors
  | 0x6053 => (s.link (sub - 1)).replays
  | 0x6054 => (s.link (sub - 1)).dropped
  | 0x7006 => s.sharedFree
  | 0x7007 => s.reservedUnused
  | 0x7008 => (s.pool.galleys.filter fun e => e.2.state ≠ .absent).length
  | 0x7009 => s.pool.marksUsed
  | 0x7013 => (s.galley s.selGalley).field sub
  | 0x9000 => anchorAddr s
  | 0x9010 => s.jrn.head
  | 0x9011 => s.anchorField 0x18 8
  | 0x9012 => liveItems s
  | 0x9013 => s.anchorField 4 4
  | 0x9014 => s.jrn.inFlight.length
  | 0x9024 => s.twin.point
  | 0x9025 => if s.twinUnreachable then 2 else s.twin.state
  | 0x9033 => if s.twin.shadowHeld then s.twin.shadowPoint else 0
  | 0x9041 => if sub = 0 then s.twin.takeover else s.twin.lostEpoch
  | 0xA010 => Tab.get zeroTab s.ctl.eventCount sub
  | 0xA900 => s.ctl.surveyResult
  | 0xA901 => s.ctl.surveyFailed
  | 0xC000 => (s.ctx s.selCtx).field sub
  | 0xC002 => (s.ctx s.selCtx).state.code
  | 0xC010 => (s.ctx s.selCtx).record.field sub
  | _ =>
    if 0x8000 ≤ i ∧ i < 0x8040 ∧ 2 ≤ sub then (s.slot (i - 0x8000)).field sub
    else if 0xA200 ≤ i ∧ i < 0xA208 then Tab.get zeroTab (s.port (i - 0xA200)).grants (sub - 1)
    else if 0xA210 ≤ i ∧ i < 0xA218 then Tab.get zeroTab (s.port (i - 0xA210)).waits (sub - 1)
    else if 0xA220 ≤ i ∧ i < 0xA228 then Tab.get zeroTab (s.port (i - 0xA220)).longest (sub - 1)
    else s.obj i sub
/-- The bytes of a STR object (R405). -/
def strBytes (i : Nat) : List Byte :=
  if i = 0x1000 then [0x53, 0x61, 0x72, 0x6E, 0x79, 0x78] else [0x54, 0x6F, 0x72, 0x6F, 0x66, 0x74]
/-- The node set in 6200h as the next commit would leave it (R332, R382). -/
def setBytes (l : List Byte) : List Byte := l ++ List.replicate (512 - l.length) 0
def State.nodeSet (s : State) : List Byte :=
  let k := s.obj 0x6200 0
  match s.dict.stagedSets.find? fun e => e.1 = k with
  | some e => setBytes e.2
  | none => setBytes (Tab.get (fun _ => []) s.dict.nodeSets k)
/-- The bytes of a DOMAIN object (R377). -/
def State.domain (s : State) (i sub : Nat) : List Byte :=
  match i with
  | 0x4040 => portCase (s.port (sub - 1)).caseEdit
  | 0x4042 => portCase (s.port (sub - 1)).caseActive
  | 0x5100 => proposedBytes s
  | 0x5110 => activeBytes s
  | 0x5111 => sha256 (activeBytes s)
  | 0x6201 => s.nodeSet
  | 0x9042 => s.twin.pendingItems
  | 0x9043 => s.twin.streams
  | 0xA800 => s.ctl.waitSnapshot
  | 0xC000 => s.ctxImage s.selCtx
  | _ => []
/-- The size of a DOMAIN object that takes segments; each has a fixed size. -/
def domainSize (i : Nat) : Nat :=
  match i with
  | 0x4040 => 512
  | 0x5010 => 32
  | 0x5011 => 32
  | 0x5100 => imageSize
  | 0x5102 => 16
  | 0x5103 => 16
  | _ => 512

/-! ## Reach (R54, R350, R381) -/

/-- The island that holds an object's value (R350; assumption log 24): none for CTL's own. -/
def objIsland (s : State) (i sub : Nat) : Option Nat :=
  if (i = 0x3101 ∨ i = 0x4040 ∨ i = 0x4042 ∨ i = 0x4050) ∧ sub ≠ 0 then some (portIsland (sub - 1))
  else if 0xA200 ≤ i ∧ i < 0xA228 ∧ sub ≠ 0 then some (portIsland (i % 16))
  else if (i = 0x6052 ∨ i = 0x6053 ∨ i = 0x6054) ∧ sub ≠ 0 then some (linkIsland (sub - 1))
  else if 0x3300 ≤ i ∧ i ≤ 0x3304 ∧ sub ≠ 0 then some (stashIsland (sub - 1))
  else if (0x7006 ≤ i ∧ i ≤ 0x7009) ∨ i = 0x7012 ∨ i = 0x7013 then some poolIsland
  else if (0x9010 ≤ i ∧ i ≤ 0x9014) ∨ i = 0x9024 ∨ i = 0x9025 ∨ i = 0x9033 ∨ i = 0x9006 then some jrnIsland
  else if i = 0xC000 ∨ i = 0xC001 ∨ i = 0xC002 ∨ i = 0xC003 ∨ i = 0xC010 then
    (if (s.ctx s.selCtx).cached then some schedIsland else some ctxIsland)
  else if 0x8000 ≤ i ∧ i < 0x8040 ∧ 2 ≤ sub then some schedIsland
  else none
/-- The island answers (R350). -/
def State.objReachable (s : State) (i sub : Nat) : Bool :=
  match objIsland s i sub with
  | some k => !(s.island k).unreachable
  | none => true
/-- The mode lets the object be reached at all, and for a write lets it be written (R54, R381). -/
def State.modeReach (s : State) (i sub : Nat) (write : Bool) : Bool :=
  match s.ctl.mode with
  | .halt => (decide (0x1000 ≤ i) && decide (i ≤ 0x1FFF)) || (decide (0x2000 ≤ i) && decide (i ≤ 0x2002))
  | .recover => !write || (decide (i = 0x2000) && decide (sub = 0))
  | .survey => !write || (decide (i = 0x2000) && decide (sub = 0))
  | _ => true
/-- The code of the access class check, if it refuses (R381, R399). -/
def State.classRefuses (s : State) (o : ObjDef) (i : Nat) (write : Bool) : Option Nat :=
  if write then
    match o.cls with
    | .ro => some 0x30000002
    | .rwc => if s.ctl.mode = .config then none else some abortState
    | .rws => if o.configOnly ∧ s.ctl.mode ≠ .config then some abortState else none
    | _ =>
      if (i = 0x5010 ∧ s.prot.keyA.isSome) ∨ (i = 0x5011 ∧ s.prot.keyB.isSome) then some 0x30000003 else none
  else if o.cls = .wo then some 0x30000001 else none

/-! ## Ranges (R388) -/

def isPow2 (v : Nat) : Bool := v ≠ 0 && v &&& (v - 1) = 0
/-- A value lies in its object's range. Values of 2000h are judged as transitions (R56). -/
def State.valueOk (s : State) (i sub v : Nat) : Bool :=
  match i with
  | 0x1020 => decide (v < 4096) || v = 0x8000 || v = 0xFFFF
  | 0x2001 => decide (v ≤ 4) || v = 7
  | 0x2F00 => v = 1
  | 0x2F01 => v = 1
  | 0x3001 => v = 1
  | 0x3300 => decide (16 ≤ v) && decide (v ≤ 256) && decide (v % 16 = 0)
  | 0x3400 => decide (1 ≤ v) && decide (v ≤ 3)
  | 0x3500 => decide (1 ≤ v) && decide (v ≤ 60000)
  | 0x4010 => decide (v ≤ 15)
  | 0x4020 => decide (v ≤ 4096)
  | 0x4021 => decide (v ≤ 4096)
  | 0x4031 => decide (v ≤ 7)
  | 0x4032 => decide (v ≤ 7)
  | 0x5104 => v = 1
  | 0x6001 => decide (v < 4096) || v = 0xFFFF
  | 0x6002 => v = 1
  | 0x6010 => decide (v < 4096)
  | 0x6020 => decide (v ≤ 1)
  | 0x6030 => decide (v ≤ 255) || v = 0xFFFF
  | 0x6042 => decide (100 ≤ v) && decide (v ≤ 1000000)
  | 0x6051 => decide (v ≤ 1)
  | 0x7001 => decide (v ≤ 2 ^ 32)
  | 0x7002 => decide (v % 4096 = 0)
  | 0x7003 => decide (v % 4096 = 0)
  | 0x7004 => isPow2 v && decide (0x10000 ≤ v) && decide (v ≤ 0x4000000)
  | 0x7010 => decide (v < 131072)
  | 0x7012 => decide (1 ≤ v) && decide (v ≤ 3)
  | 0x9002 => v = 0 || (isPow2 v && decide (2 ^ 16 ≤ v) && decide (v ≤ 2 ^ 28))
  | 0x9003 => decide (v % 4096 = 0)
  | 0x9004 => decide (v % 2 ^ 20 = 0)
  | 0x9005 => !(s.ctl.mode = .keep || s.ctl.mode = .twin || s.ctl.mode = .drain) || decide (v ≤ ringRecords s / 4)
  | 0x9006 => v = 1 || v = 2
  | 0x9022 => v ≠ 0
  | 0x9031 => decide (v % 4096 = 0)
  | 0x9032 => v = 0 || (isPow2 v && decide (2 ^ 16 ≤ v) && decide (v ≤ 2 ^ 28))
  | 0x9040 => v = 1 || v = 2
  | 0xC001 => decide (1 ≤ v) && decide (v ≤ 3)
  | 0xC003 => v = 1 || v = 2
  | 0xC0FF => decide (v < 262144)
  | 0xC000 =>
    (match sub with
     | 1 => decide (v < localSize)
     | 2 => decide (v < localSize) && decide (v % 32 = 0)
     | 3 => v = 0 || (isPow2 v && decide (2 ≤ v) && decide (v ≤ 65536))
     | 4 => v = 0 || (isPow2 v && decide (128 ≤ v) && decide (v ≤ 16384))
     | 5 => decide (v ≤ 4095)
     | 7 => decide (v ≤ 7)
     | _ => true)
  | _ => if 0x8000 ≤ i ∧ i < 0x8040 ∧ sub = 1 then decide (v ≤ 1) else true
/-- The value as it is held: bits written as zero and ignored, reserved bits (R9). -/
def heldBits (i v : Nat) : Nat :=
  match i with
  | 0x9001 => v / 4096 * 4096
  | 0xA100 => v / 4096 * 4096
  | 0x7000 => v / 2 ^ 20 * 2 ^ 20
  | 0x9020 => v % 4096
  | 0x9030 => if v = 0xFFFF then v else v % 4096
  | 0xA000 => v % 64
  | _ => v

/-! ## Staging and commit (R19, R382 to R386, R419) -/

/-- Stage a value. -/
def State.stage (s : State) (i sub v : Nat) : State :=
  { s with dict := { s.dict with staged := Tab.insert (objKey i sub) v s.dict.staged } }
def State.stagedAny (s : State) : Bool := !s.dict.staged.isEmpty || !s.dict.stagedSets.isEmpty
/-- The regions of R419 with the values the next commit would leave: (first address, bytes); none for one that begins
below address 0. -/
def State.regions (s : State) : List (Option Nat × Nat) :=
  let n := fun i => s.objNext i 0
  [(some (n 0xA100), 2 ^ 31)] ++
  (if n 0x7001 = 0 then [] else
    [(some (n 0x7000), n 0x7001 * 1024), (some (n 0x7002), 2 ^ 24), (some (n 0x7003), n 0x7004 * 32)]) ++
  (if n 0x9002 = 0 then [] else
    [(some (n 0x9001), n 0x9002 * 64), (some (n 0x9003), 2 ^ 20), (some (n 0x9004), 2 ^ 25), (some (anchorAddr s), 64)]) ++
  (if n 0x9032 = 0 then [] else
    [(if n 0x9031 < 64 then none else some (n 0x9031 - 64), n 0x9032 * 64 + 64)])
def State.regionsOk (s : State) : Bool :=
  s.regions.all fun r => match r.1 with
    | some a => s.regionOk a r.2
    | none => false
/-- Every staged value becomes active. A change of POOL_BASE or POOL_CELLS configures the pool anew: no cell of it has been allocated,
and the free list is empty (R156, R193), which the shared free cells show (R185); galleys stay as they are (DESIGN CHOICE, assumption log 85). -/
def State.applyStaged (s : State) : State :=
  let d := s.dict
  let t : State := { s with dict := { d with
    values := Tab.putAll objDefault d.values d.staged, staged := []
    nodeSets := Tab.putAll (fun _ => []) d.nodeSets d.stagedSets, stagedSets := []
    commits := satAdd u32Max d.commits 1 } }
  if t.obj 0x7000 0 ≠ s.obj 0x7000 0 ∨ t.obj 0x7001 0 ≠ s.obj 0x7001 0 then
    ({ t with pool := { t.pool with nextCell := 0, freeList := [] } } : State).poolLow
  else t
/-- A device-wide RULE point begins (R383): every op that has issued an access is an earlier op. -/
def State.beginPoint (s : State) : State :=
  { s with ctl := { s.ctl with rulePoint := some (s.earlierOps fun _ => true) } }
/-- The RULE point is reached: every effect of the earlier ops is acknowledged. -/
def State.pointReached (s : State) : Bool :=
  match s.ctl.rulePoint with
  | some l => l.all fun e => !s.opUnacked e
  | none => true
/-- Run an act at a device-wide RULE point in the modes that carry ops, at once in the others; issue resumes when the response
returns (R383). -/
def State.atPoint (s : State) (act : State → State) (a : After) : Reply :=
  let begun := if s.ctl.rulePoint.isNone ∧ (s.ctl.mode.traffic ∨ s.ctl.mode = .drain) then s.beginPoint else s
  if begun.pointReached then .later (act begun) none a else .hold begun
/-- The configuration image follows a change in KEEP and TWIN (R283, R383). -/
def State.syncConfig (s : State) : State := if s.journaled then s.writeConfigImage else s
/-- The shadow is looked for when its configuration appears (R289). -/
def State.commitNow (s : State) : State := s.applyStaged.syncConfig.findShadow

/-! ## Segments (R377) -/

/-- Place bytes at an offset of a fixed-size value. -/
def patch (old : List Byte) (off : Nat) (bs : List Byte) : List Byte := old.take off ++ bs ++ old.drop (off + bs.length)
/-- A segment fits its object (R377). -/
def segmentOk (i off n : Nat) (last : Bool) : Bool :=
  decide (off + n ≤ domainSize i) && (!last || decide (off + n = domainSize i))

/-! ## Protection (R398 to R404) -/

/-- The bits of an image's byte that are not reserved (R9, R398). -/
def imageMask (o : Nat) : Byte :=
  if o < 2 ∨ 0x20040 ≤ o then 0xFF
  else if o < 0x40 then 0
  else if (o - 0x40) % 0x20 < 16 then 0xFF
  else if (o - 0x40) % 0x20 = 16 then 3
  else 0
/-- Any write to PROPOSED voids the nonce and both tags, whole or begun; reserved bits hold zero whatever is written (R9). -/
def State.writeProposed (s : State) (off : Nat) (bs : List Byte) : State :=
  { s with prot := { s.prot with
    proposed := Tab.putAll (fun _ => 0) s.prot.proposed ((placed off bs).map fun e => (e.1, e.2 &&& imageMask e.1)), nonce := none, tagA := none, tagB := none
    partials := s.prot.partials.filter fun e => decide (e.1 = 0x5010 ∨ e.1 = 0x5011) } }
/-- A read of NONCE issues a fresh nonce and voids both tags. -/
def State.issueNonce (s : State) : State × Nat :=
  let n := Config.nonce s.free
  (({ s with prot := { s.prot with nonce := some n, tagA := none, tagB := none } } : State).nextFree, n.toNat)
/-- A key or tag is whole at its segment with LAST; until then its segments are kept. -/
def Protect.take (p : Protect) (i off : Nat) (bs : List Byte) (first last : Bool) : Protect :=
  let size := domainSize i
  let old := if first then List.replicate size 0 else Tab.get (fun _ => List.replicate size 0) p.partials i
  let v := patch old off bs
  let q := { p with partials := if last then Tab.erase i p.partials else Tab.insert i v p.partials }
  if last then
    match i with
    | 0x5010 => { q with keyA := some v }
    | 0x5011 => { q with keyB := some v }
    | 0x5102 => { q with tagA := some v }
    | _ => { q with tagB := some v }
  else q
/-- A proposed image is valid (R398). -/
def imageValid (img : Nat → Byte) : Bool :=
  decide (imageNum img 0 2 = 1) &&
  ((List.range 4096).all fun w =>
    let b := 0x40 + 0x20 * w
    let base := imageNum img b 8
    let limit := imageNum img (b + 8) 8
    imageNum img (b + 16) 1 % 4 = 0 || (decide (base ≤ limit) && decide (base / localSize = limit / localSize))) &&
  (List.range 4096).all fun i =>
    let v := imageNum img (0x20040 + 2 * i) 2
    decide (v < 4096) || v = 0xFFFF
/-- The tag of a custodian (R401). -/
def tagOf (role : Byte) (key nonce : List Byte) (image : List Byte) : List Byte :=
  (hmacSha256 key ([role] ++ nonce ++ sha256 image)).take 16
/-- Both tags equal those the device computes. -/
def State.tagsOk (s : State) : Bool :=
  match s.prot.keyA, s.prot.keyB, s.prot.nonce, s.prot.tagA, s.prot.tagB with
  | some a, some b, some n, some ta, some tb =>
    let nb := leBytes 8 n.toNat
    let img := proposedBytes s
    ta = tagOf 0x41 a nb img && tb = tagOf 0x42 b nb img
  | _, _, _, _, _ => false
/-- The first failing check of R402. -/
def State.protectRefusal (s : State) : Option Nat :=
  let p := s.prot
  if p.locked then some 0x60000001
  else if p.keyA.isNone ∨ p.keyB.isNone then some 0x60000004
  else if p.nonce.isNone ∨ p.tagA.isNone ∨ p.tagB.isNone then some 0x60000003
  else if !imageValid p.proposedByte then some abortRange
  else if !s.tagsOk then some 0x60000002
  else none
/-- The change applies, and its image follows (R404). -/
def State.applyProtection (s : State) : State :=
  let p := s.prot
  let img := (List.range imageSize).filterMap fun o => if p.proposedByte o = activeDefault o then none else some (o, p.proposedByte o)
  let s1 : State := { s with prot := { p with active := img, applying := false } }
  s1.syncConfig
/-- Once the response has returned, CHANGES rises and the event is raised. -/
def State.protectionDone (s : State) : State :=
  ({ s with prot := { s.prot with changes := satAdd u32Max s.prot.changes 1 } } : State).raise .protectionChanged
/-- A refusal under check 5 counts, and at 8 locks (R402, R403). -/
def State.countRefusal (s : State) : State :=
  let n := satAdd 255 s.prot.refusals 1
  let s1 : State := { s with prot := { s.prot with refusals := n, locked := decide (8 ≤ n) } }
  s1.raiseIf (decide (8 ≤ n)) .protectionLocked
/-- PROTECT_COMMIT (R402 to R404): the write consumes the nonce, except when it is refused as locked. -/
def State.protectCommit (s : State) : Reply :=
  if s.prot.applying then s.atPoint State.applyProtection .protection
  else
    let used : State := { s with prot := { s.prot with nonce := none } }
    match s.protectRefusal with
    | some 0x60000001 => .refuse 0x60000001
    | some 0x60000002 => .refuseIn used.countRefusal 0x60000002
    | some c => .refuseIn used c
    | none => ({ used with prot := { used.prot with applying := true } } : State).atPoint State.applyProtection .protection

/-! ## The context window (R390 to R393) -/

/-- CLASS and SHARE are writable at any time, the others while the context is CLOSED (R392); in force when the response returns
(R381). -/
def State.writeField (s : State) (sub v : Nat) : Reply :=
  let c := s.selCtx
  if (s.ctx c).state ≠ .closed ∧ sub ≠ 7 ∧ sub ≠ 8 then .refuse abortState
  else .later ((s.comingDue 0xC000 sub v).writeCtxImage c) (some (0xC000, sub, v)) .none
/-- OPEN (R393). -/
def State.openCtx (s : State) : Reply :=
  let c := s.selCtx
  let x := s.ctx c
  if x.f.ringSize = 0 ∨ x.f.slotSize = 0 ∨ x.f.ringBase % x.f.slotSize ≠ 0 ∨ (x.f.adoptNode < 4096 ∧ x.f.adoptEpoch = 0) then
    .refuse abortRange
  else if !(s.ctl.mode = .config || s.ctl.mode.traffic) ∨ x.state ≠ .closed then .refuse abortState
  else .ok ((s.setCtx c { f := x.f, state := .idle, cached := x.cached, next256 := if x.cached then x.next256 else 0 }).writeCtxImage c)
/-- The doorbells that came behind a CLOSE are judged. -/
def State.ringLate (s : State) (c : Nat) : State :=
  let l := (s.ctx c).late
  l.foldl (fun t e => t.ring e.1 c e.2) (s.modCtx c fun x => { x with late := [], closing := false })
/-- CLOSE (R393): judged once every doorbell that arrived before it has been decided; the fault record ends with the context
(R267). -/
def State.closeCtx (s : State) : Reply :=
  let c := s.selCtx
  let x := s.ctx c
  if !(s.ctl.mode = .config || s.ctl.mode.traffic || s.ctl.mode = .drain) then .refuse abortState
  else if x.state = .closed then .ok s
  else if !x.early.isEmpty ∨ !x.bells.isEmpty ∨ !x.accepting.isEmpty then .hold (s.modCtx c fun y => { y with closing := true })
  else if x.state ≠ .idle ∨ !x.items.isEmpty then .refuseIn (s.ringLate c) abortState
  else .ok (((s.modCtx c fun y => { y with state := .closed, record := {} }).writeCtxImage c).ringLate c)

/-! ## The wait snapshot (R396) -/

/-- One entry: KIND, GROUP, COUNTER, VALUE, COND. REMAINING is open (assumption log 4). -/
def waitFields : WaitOn → Option (Nat × Nat × Nat × Nat × Nat)
  | .counter g n v cond _ => some (0, g, n, v, cond)
  | .pop g => some (1, 0, 0, g, 0)
  | .fullGalley g => some (2, 0, 0, g, 0)
  | .emptyPool g => some (3, 0, 0, g, 0)
  | .fullMarks g => some (3, 0, 0, g, 0)
  | .room g => some (3, 0, 0, g, 0)
  | .domain p _ _ => some (4, 0, 0, p, 0)
  | .route _ _ => none
/-- The limit of a wait is 0: REMAINING reads FFFF_FFFFh. -/
def State.unlimited (s : State) (c : Nat) (w : WaitOn) : Bool :=
  let b := match s.item c with
    | some it => s.opBytes it
    | none => []
  match w with
  | .counter .. => fieldAt b 0x10 4 = 0
  | .pop _ => fieldAt b 0x1D 3 = 0
  | .fullGalley _ => true
  | .emptyPool _ => s.obj 0x7005 0 = 0
  | .fullMarks _ => s.obj 0x7005 0 = 0
  | .room _ => true
  | .domain .. => s.obj 0x3130 0 = 0
  | .route .. => s.obj 0x6041 0 = 0
def State.snapshotEntry (s : State) (c : Nat) (w : WaitOn) : List Byte :=
  match waitFields w with
  | none => []
  | some (k, g, n, v, cond) =>
    let cond := match s.item c with
      | some it => if k = 0 then cond + boolBit (bitOf (fieldAt (s.opBytes it) 6 1) 7) 7 else 0
      | none => 0
    leBytes 4 (c + k * 2 ^ 28) ++ leBytes 2 g ++ leBytes 2 n ++ leBytes 8 v ++
      leBytes 4 (if s.unlimited c w then u32Max else (Config.remaining s.free c).toNat) ++ leBytes 1 cond ++ leBytes 3 0
def State.takeSnapshot (s : State) : State :=
  let l := s.ctxs.filterMap fun e => match e.2.waitOn with
    | some w => let b := s.snapshotEntry e.1 w; if b.isEmpty then none else some b
    | none => none
  ({ s with ctl := { s.ctl with waitSnapshot := leBytes 4 l.length ++ leBytes 12 0 ++ l.flatten } } : State).nextFree

end Sys2Proof.Machine
end

