-- ==== Sys2Proof/Machine/Link.lean ====
section
/-! DEFINITION. The links of the fabric: frames as bytes (R303, R304), blocks (R300 to R302), credits and lanes (R307, R308),
training, loss and the adverts that follow (R312 to R315, R321, R323). -/
namespace Sys2Proof.Machine

/-! ## Frames as bytes (R303, R304) -/

def frameUnits (f : Frame) : Nat := (f.payload.length + 15) / 16
def frameSize (f : Frame) : Nat := 16 + 16 * frameUnits f
/-- A frame's bytes; its payload is padded with zeros to whole units. -/
def frameBytes (f : Frame) : List Byte :=
  leBytes 1 f.type ++ leBytes 1 (f.vl % 4 + f.cls % 8 * 4 + boolBit f.down 5 + boolBit f.masked 6) ++
    leBytes 2 (f.dest % 4096 + f.hops % 16 * 4096) ++ leBytes 2 (f.src % 4096) ++ leBytes 2 f.tag ++
    leBytes 8 (f.word % localSize + frameUnits f * localSize) ++ f.payload ++
    List.replicate (16 * frameUnits f - f.payload.length) 0
/-- The frame at the head of the bytes, and the bytes behind it; none until it is whole. -/
def frameOf (b : List Byte) : Option (Frame × List Byte) :=
  let w := fieldAt b 8 8
  let n := 16 + 16 * bitsOf w 51 7
  let v := fieldAt b 1 1
  if b.length < 16 ∨ b.length < n then none
  else some ({ type := fieldAt b 0 1, masked := bitOf v 6, down := bitOf v 5, cls := bitsOf v 2 3, vl := bitsOf v 0 2,
               dest := fieldAt b 2 2 % 4096, hops := fieldAt b 2 2 / 4096, src := fieldAt b 4 2 % 4096, tag := fieldAt b 6 2,
               word := w % localSize, payload := (b.drop 16).take (n - 16) }, b.drop n)
/-- The types of R305. -/
def frameTypeKnown (t : Nat) : Bool := decide (t ≤ 4) || (decide (0x10 ≤ t) && decide (t ≤ 0x20))
/-- FILL and HAREBELL stay on their link and use no credits (R305, R307). -/
def linkLocal (t : Nat) : Bool := decide (t ≤ 1)
/-- Whole frames from received bytes, and the bytes of a frame not yet whole. The fuel bounds the frames of a block. -/
def framesIn : Nat → List Byte → List Frame × List Byte
  | 0, b => ([], b)
  | n + 1, b => match frameOf b with
    | none => ([], b)
    | some (f, r) => let t := framesIn n r; (f :: t.1, t.2)

/-! ## Credits (R307) -/

/-- The buffer of a lane, in credits of 64 B. -/
def laneCredits (vl : Nat) : Nat :=
  match vl with
  | 0 => 64
  | 1 => 1024
  | 2 => 1024
  | _ => 128
def creditsFor (f : Frame) : Nat := (frameSize f + 63) / 64
/-- The credits a sender holds on a lane. -/
def Link.credit (k : Link) (vl : Nat) : Nat :=
  (laneCredits vl + 65536 + Tab.get zeroTab k.peerFreed vl - Tab.get zeroTab k.spent vl) % 65536
def Link.canSend (k : Link) (f : Frame) : Bool := linkLocal f.type || decide (creditsFor f ≤ k.credit f.vl)
/-- The receiver frees the buffer of a frame it has taken. -/
def Link.free (k : Link) (f : Frame) : Link :=
  if linkLocal f.type then k
  else { k with freed := Tab.put zeroTab k.freed f.vl ((Tab.get zeroTab k.freed f.vl + creditsFor f) % 65536) }
/-- The frame has a node as its destination: it is not link-local, flooded or sent by tree hops. -/
def routable (f : Frame) : Bool := decide (4 ≤ f.type)
/-- Two frames are one and the same; the hops of a flooded frame do not tell it apart. -/
def sameFrame (f g : Frame) : Bool :=
  let key (h : Frame) : List Byte := frameBytes (if routable h then h else { h with src := 0, dest := 0, hops := 0, cls := 0, tag := 0 })
  key f = key g
/-- A frame that has come in is taken from the link it stands on. -/
def takeFrom (f : Frame) : List (Nat × Link) → Option (Nat × Link)
  | [] => none
  | (l, k) :: r => if k.rx.any fun g => sameFrame g f then some (l, k) else takeFrom f r
def removeFrame (f : Frame) : List Frame → List Frame
  | [] => []
  | g :: r => if sameFrame g f then r else g :: removeFrame f r
def State.takeRx (s : State) (f : Frame) : State :=
  match takeFrom f s.fab.links with
  | some (l, k) => s.setLink l { (k.free f) with rx := removeFrame f k.rx }
  | none => s

/-- The frame as it stands in a receive buffer, with the SRC and HOPS it came with; a frame that stands in none, as it is. -/
def State.rxFrame (s : State) (f : Frame) : Frame := match takeFrom f s.fab.links with
  | some (_, k) => (k.rx.find? fun g => sameFrame g f).getD f
  | none => f

/-- The link a frame came in on, as long as it stands in its receive buffer (R236's requester number). -/
def State.rxLink (s : State) (f : Frame) : Nat := match takeFrom f s.fab.links with
  | some (l, _) => l
  | none => s.outLink f.src

/-! ## The neighbours and the tree (R310, R316) -/

def Link.up (k : Link) : Bool := decide (k.state = 3 ∨ k.state = 5)
def State.ownSerial (s : State) : Nat := s.straps.nodeSerial
def State.root (s : State) : Nat := s.fab.rootSerial.getD s.ownSerial
def State.isRoot (s : State) : Bool := decide (s.root = s.ownSerial)
/-- The up links, lowest first. -/
def State.upLinks (s : State) : List (Nat × Link) := s.fab.links.filter fun e => e.2.up
/-- The up link whose neighbour has the smallest ROOT_DIST, then the lowest identifier. -/
def State.parentLink (s : State) : Option (Nat × Link) :=
  s.upLinks.foldl (fun m e => match m with
    | none => some e
    | some a => if e.2.peerDist < a.2.peerDist ∨ (e.2.peerDist = a.2.peerDist ∧ e.2.peerNode < a.2.peerNode) then some e else some a) none
def State.rootDist (s : State) : Nat :=
  if s.isRoot then 0
  else match s.parentLink with
    | some e => if e.2.peerDist < 255 then min 255 (e.2.peerDist + 1) else 255
    | none => 255
/-- Learn of a serial: the lowest seen is the assigner's. One that has departed is not learned from a stale ROOT_SERIAL
(DEDUCED, assumption log 100). -/
def State.learnRoot (s : State) (serial : Nat) : State :=
  if serial < s.root ∧ ¬ s.fab.departed.contains serial then { s with fab := { s.fab with rootSerial := some serial } } else s

/-- A node has been heard itself, by its own beacon or advert: it has not departed. -/
def State.hearNode (s : State) (serial : Nat) : State :=
  { s with fab := { s.fab with departed := s.fab.departed.filter fun d => d ≠ serial } }

/-! ## Adverts out (R321) -/

def State.advertNow (s : State) (seq : Nat) : Advert :=
  { serial := s.ownSerial, seq := seq, node := s.nodeNum
    parent := if s.isRoot then 4095 else (match s.parentLink with
      | some e => e.2.peerNode
      | none => 4095)
    neighbours := (List.range 16).map fun l => ((s.link l).peerNode, (s.link l).up) }
def advertFrame (a : Advert) (src : Nat) : Frame :=
  { type := 2, vl := 0, src := src
    payload := leBytes 8 a.serial ++ leBytes 4 a.seq ++ leBytes 2 (a.node % 4096) ++ leBytes 2 (a.parent % 4096) ++
      (a.neighbours.flatMap fun n => leBytes 2 (n.1 % 4096 + boolBit n.2 15)) ++ leBytes (48 - 2 * a.neighbours.length) 0 }
/-- Queue an advert on every up link but one. -/
def State.sendAdvert (s : State) (f : Frame) (except : Option Nat) : State :=
  s.upLinks.foldl (fun t e => if except = some e.1 then t else t.queueFrame e.1 f) s
/-- The node floods its advert, under the next ADVERT_SEQ; one in NODE_SPACE_FULL sends none (R320). -/
def State.floodAdvert (s : State) : State :=
  if s.fab.nodeState = 2 ∨ s.ctl.mode = .halt then s
  else
    let a := s.advertNow s.fab.advertSeq
    let s1 : State := { s with fab := { s.fab with advertSeq := (s.fab.advertSeq + 1) % 2 ^ 32,
                                                    adverts := Tab.insert s.ownSerial a s.fab.adverts } }
    s1.sendAdvert (advertFrame a s.nodeNum) none
def execAdvertSend (s : State) : Host.Outcome State Fault Refusal := .next s.floodAdvert

/-! ## Identifiers (R316 to R319) -/

/-- The identifiers the assigner knows: those it has given, its own, and those of the adverts it holds. -/
def State.idTable (s : State) : List (Nat × Nat) :=
  let given := s.fab.assigned
  let own := match s.fab.nodeId with
    | some n => [(s.ownSerial, n)]
    | none => []
  let seen := s.fab.adverts.filterMap fun e => if e.2.node = 4095 then none else some (e.1, e.2.node)
  given ++ ((own ++ seen).filter fun e => !given.any fun g => g.1 = e.1)
/-- The identifier for a serial: the one it has, PREFERRED_NODE if free, else the lowest free; none when none is free. -/
def State.idFor (s : State) (serial preferred : Nat) : Option Nat :=
  let t := s.idTable
  match t.find? fun e => e.1 = serial with
  | some e => some e.2
  | none =>
    let free (n : Nat) : Bool := !t.any fun e => e.2 = n
    if preferred < 4096 ∧ free preferred then some preferred else (List.range 4096).find? free
/-! ## Waits for a route (R327, R466) -/

/-- The bytes a write request enables: (offset from its address, bytes), in runs for a MASKED one. -/
def maskRuns (mask : Nat) (bs : List Byte) : Nat → Nat → List (Nat × List Byte)
  | 0, _ => []
  | n + 1, j =>
    if bitOf mask j then
      match maskRuns mask bs n (j + 1) with
      | (o, l) :: r => if o = j + 1 then (j, bs.getD j 0 :: l) :: r else (j, [bs.getD j 0]) :: (o, l) :: r
      | [] => [(j, [bs.getD j 0])]
    else maskRuns mask bs n (j + 1)
def writeRuns (f : Frame) : List (Nat × List Byte) :=
  if f.masked then (maskRuns (fieldAt f.payload 0 16) (f.payload.drop 16) 128 0).map fun e => (beatOf f.word + e.1, e.2)
  else if f.payload.isEmpty then [] else [(f.word, f.payload)]
/-- The piece header of a frame (R329). A producer in KEEP or TWIN has an ATTEMPT other than 0 (assumption log 25). -/
def pieceOf (f : Frame) : Piece :=
  let b := f.payload
  let attempt := fieldAt b 0x14 4
  { galley := fieldAt b 0 4 % 2 ^ 17, stream := { node := bitsOf (fieldAt b 4 4) 18 12, ctx := bitsOf (fieldAt b 4 4) 0 18 }
    seq := fieldAt b 8 8, ord := fieldAt b 0x10 4, attempt := BitVec.ofNat 32 attempt, marked := decide (attempt ≠ 0)
    openFlag := bitOf (fieldAt b 0 4) 17, close := bitOf (fieldAt b 0 4) 18, data := b.drop 32, pieceNo := fieldAt b 0x18 4
    remote := some (f.src, f.tag) }
/-- A route to the node exists, or the node is this one (R327, R466). -/
def State.reachable (s : State) (n : Nat) : Bool := s.routed n || decide (s.fab.nodeId = some n)
/-- A request that waited for a route names this device now (R466): its access is made here (assumption log 80). -/
def State.localise (s : State) (r : Remote) : State :=
  let s1 : State := { s with fab := { s.fab with remotes := s.fab.remotes.filter (· ≠ r) } }
  let p (c n seg d : Nat) : Piece :=
    { pieceOf r.frame with remote := none, serial := n, seg := seg, dest := d, stream := s.stream c }
  match r.owner with
  | .opRead c n seg =>
    if s1.owners.any fun o => o = .opRead c n seg then s1
    else s1.modRun c fun q => q.modSeg seg fun g => if g.state = .reading then { g with state := .ready } else g
  | .piece c n seg d => { s1 with pool := { s1.pool with pieces := s1.pool.pieces ++ [p c n seg d] } }
  | .seal c n d => { s1 with pool := { s1.pool with seals := s1.pool.seals ++ [p c n 0 d] } }
  | .ruleMark c node =>
    { s1 with sched := { s1.sched with rules := s1.sched.rules.map fun q => if q.ctx = c then { q with nodes := q.nodes.filter (· ≠ node) } else q } }
  | .notice _ => (match r.frame.word % 256 with
    | 1 => s1.poolRelease (pieceOf r.frame)
    | 2 => s1.poolDiscard (pieceOf r.frame)
    | _ => s1.giveRoom (pieceOf r.frame).galley).poolRun
  | o => (writeRuns r.frame).foldl (fun t e =>
      t.presentWrites { owner := o, requester := schedReq, cls := r.frame.cls, locked := false } (lineSide e.1 e.2.length) 0 e.2) s1
/-- Requests that wait for a route go out once there is one. -/
def State.sendWaiting (s : State) : State :=
  s.fab.remotes.foldl (fun t r =>
    if !r.busErr then t
    else if t.fab.nodeId = some r.frame.dest then t.localise r
    else if t.routed r.frame.dest then
      (({ t with fab := { t.fab with remotes := t.fab.remotes.map fun q => if q.tag = r.tag then { q with busErr := false } else q } } :
        State)).sendFrame r.frame
    else t) s
/-- Channels, legacy slots and requests that wait for a node that can be reached now go on; without a route to it the twin is
unreachable, until a twin point says otherwise (R288). -/
def State.wakeRoutes (s0 : State) : State :=
  let s : State := if s0.shipping && !s0.routed (s0.obj 0x9020 0 % 4096) then { s0 with twin := { s0.twin with state := 2 } } else s0
  let s1 := s.ctxs.foldl (fun t e => match e.2.waitOn with
    | some (.route n _) => if s.reachable n then t.unstall e.1 else t
    | _ => t) s
  let s2 := s.sched.slots.foldl (fun t e => match e.2.stalled with
    | some (.route n _) => if s.reachable n then t.setSlot e.1 { t.slot e.1 with stalled := none } else t
    | _ => t) s1
  s2.sendWaiting
/-- The node takes the identifier given, and what waited for it as another node's goes on (R466), or it enters
NODE_SPACE_FULL (R320). -/
def State.takeId (s : State) (id : Option Nat) : State :=
  match id with
  | some n => ({ s with fab := { s.fab with nodeId := some n, nodeState := 1 } } : State).wakeRoutes
  | none => ({ s with fab := { s.fab with nodeId := none, nodeState := 2 } } : State).raiseIf (decide (s.fab.nodeState ≠ 2)) .nodeSpaceFull
def State.give (s : State) (serial : Nat) (id : Option Nat) : State :=
  match id with
  | some n => { s with fab := { s.fab with assigned := (s.fab.assigned.filter fun e => e.1 ≠ serial) ++ [(serial, n)] } }
  | none => s
def assignFrame (answer : Bool) (serial node src : Nat) : Frame :=
  { type := 3, vl := 0, src := src, word := boolBit answer 0, payload := leBytes 8 serial ++ leBytes 2 node ++ leBytes 6 0 }
/-- The node asks for an identifier: the assigner gives itself one, any other sends ASSIGN toward the root (R313, R317). -/
def State.askId (s : State) : State :=
  let preferred := s.obj 0x6001 0
  if s.isRoot then
    let id := s.idFor s.ownSerial preferred
    (s.give s.ownSerial id).takeId id
  else match s.parentLink with
    | some e => s.queueFrame e.1 (assignFrame false s.ownSerial preferred s.nodeNum)
    | none => s

/-! ## A link's training and loss (R313 to R315, R323, R333) -/

/-- The link may train: not in HALT, in service, its island clocked and out of reset. -/
def State.canTrain (s : State) (l : Nat) : Bool :=
  decide (l < 16) && s.ctl.mode ≠ .halt && decide (s.obj 0x6051 (l + 1) = 0) && !(s.island (linkIsland l)).unreachable &&
    !(s.island (linkIsland l)).retired
/-- A link that may train waits for lock from step 1. -/
def State.awaitLock (s : State) (l : Nat) : State :=
  let k := s.link l
  if s.canTrain l ∧ (k.state = 0 ∨ k.state = 4) then s.setLink l { k with state := 1, good := 0 } else s
def State.awaitLocks (s : State) : State := (List.range 16).foldl State.awaitLock s
def execLinkLock (link : Nat) (s : State) : Host.Outcome State Fault Refusal :=
  .next ((s.setLink link { s.link link with lock := true, good := 0 }).awaitLock link)
/-- Entries whose primary is the link and whose alternate is valid take the alternate (R323). -/
def State.takeAlternates (s : State) (l : Nat) : State :=
  { s with fab := { s.fab with routes := s.fab.routes.map fun e =>
      if e.2.primary = l ∧ e.2.primaryValid ∧ e.2.altValid then (e.1, { e.2 with onAlt := true }) else e } }
/-- A queued frame has an alternate to move to. -/
def State.hasAlternate (s : State) (l : Nat) (f : Frame) : Bool :=
  let r := s.route f.dest
  routable f && decide (f.vl ≠ 3) && r.altValid && decide (r.primary = l) && decide (r.alternate ≠ l)
/-- A frame whose first block is acknowledged while its rest is not sent or not acknowledged is lost with it. -/
def Link.cutFrame (k : Link) : Nat := match k.replay with
  | b :: _ => if b.cont then 1 else 0
  | [] => if k.txCounted ∧ k.txBytes ≠ [] then 1 else 0
/-- A link goes down: what is in its replay buffer and queue is lost or moves, and the node floods an advert. -/
def State.linkDown (s : State) (l : Nat) : State :=
  let k := s.link l
  let moved := k.tx.filter (s.hasAlternate l)
  let lost := (k.tx.filter fun f => !s.hasAlternate l f && !linkLocal f.type).length + k.replay.foldl (fun n b => n + b.begun) 0 + k.cutFrame
  let s1 := s.setLink l { k with
    state := 4, good := 0, errs := 0, dropped := satAdd u32Max k.dropped lost, nak := false, rxBytes := [], rx := [], freed := []
    replay := [], resend := none, tx := [], txBytes := [], txCounted := false, spent := [], peerFreed := [] }
  let s2 := moved.foldl (fun t f => t.queueFrame (s.route f.dest).alternate f) (s1.takeAlternates l)
  if k.up then s2.floodAdvert else s2
/-- A link that trains or is up goes down; any other stays as it is. -/
def State.dropLink (s : State) (l : Nat) : State :=
  if (s.link l).state = 2 ∨ (s.link l).up then s.linkDown l else s
def execBeaconTimeout (link : Nat) (s : State) : Host.Outcome State Fault Refusal := .next ((s.dropLink link).awaitLock link)

/-! ## Harebell (R312, R313) -/

def State.beaconNow (s : State) (l : Nat) : Beacon :=
  { serial := s.ownSerial, rootSerial := s.root, node := s.nodeNum, nodeState := s.fab.nodeState, link := l
    rootDist := s.rootDist, advertSeq := (s.fab.advertSeq + u32Max) % 2 ^ 32 }
def beaconFrame (b : Beacon) (src : Nat) : Frame :=
  { type := 1, vl := 0, src := src
    payload := leBytes 8 b.serial ++ leBytes 8 b.rootSerial ++ leBytes 2 (b.node % 4096 + b.nodeState * 4096) ++ leBytes 1 b.link ++
      leBytes 1 b.rootDist ++ leBytes 4 b.advertSeq ++ leBytes 8 0 }
/-- A beacon goes out every 100 µs; each tenth ends a millisecond of R314's count of failed blocks. -/
def State.harebellSend (s : State) (l : Nat) : State :=
  let k := s.link l
  if s.canTrain l ∧ (k.state = 2 ∨ k.up) then
    let n := (k.beacons + 1) % 10
    (s.setLink l { k with beacons := n, errs := if n = 0 then 0 else k.errs }).queueFrame l (beaconFrame (s.beaconNow l) s.nodeNum)
  else s
def execHarebellSend (link : Nat) (s : State) : Host.Outcome State Fault Refusal := .next (s.harebellSend link)
/-- What a beacon says of the neighbour. -/
def Link.hear (k : Link) (b : Beacon) : Link :=
  { k with state := if b.node = 4095 ∧ b.nodeState ≠ 1 then 5 else 3, peerSerial := b.serial, peerNode := b.node
           peerRoot := b.rootSerial, peerDist := b.rootDist, peerLink := b.link }
/-- A beacon teaches the neighbour's own serial and the lowest it has seen. -/
def State.learnBeacon (s : State) (b : Beacon) : State := ((s.hearNode b.serial).learnRoot b.rootSerial).learnRoot b.serial
/-- A good beacon: a training link comes up with every count at 0, and the node floods an advert and asks for an
identifier if it has none. -/
def State.harebell (s : State) (l : Nat) (b : Beacon) : State :=
  let k := s.link l
  if !s.canTrain l then s
  else if k.state = 2 then
    let fresh : Link := { k with
      nak := false, rxNumber := 0, rxBytes := [], rx := [], freed := [], txNumber := 0, replay := [], resend := none
      tx := k.tx.filter fun f => f.type = 1, txBytes := [], txCounted := false, spent := [], peerFreed := [], sinceMgmt := 15 }
    let s1 := ((s.setLink l (fresh.hear b)).learnBeacon b).floodAdvert
    if s.fab.nodeState = 0 then s1.askId else s1
  else if k.up then (s.setLink l (k.hear b)).learnBeacon b
  else s
def execHarebell (link : Nat) (beacon : Beacon) (s : State) : Host.Outcome State Fault Refusal := .next (s.harebell link beacon)

/-! ## Blocks (R300 to R302, R308) -/

def blockFrameBytes : Nat := 1008
/-- The trailer behind a block's frame bytes (R300, R301). -/
def Link.trailer (k : Link) (idle : Bool) (number : Nat) (frames : List Byte) : List Byte :=
  let b := frames ++ leBytes 2 (number % 4096 + boolBit k.nak 12 + boolBit idle 13) ++ leBytes 2 (k.rxNumber % 4096) ++
    leBytes 2 (Tab.get zeroTab k.freed 0) ++ leBytes 2 (Tab.get zeroTab k.freed 1) ++ leBytes 2 (Tab.get zeroTab k.freed 2) ++
    leBytes 2 (Tab.get zeroTab k.freed 3)
  b ++ leBytes 4 (crc32c b)
/-- A lane's first frame leaves once it has credit; none passes it (R308). -/
def Link.ifCredit (k : Link) (f : Option Frame) : Option Frame :=
  match f with
  | some g => if k.canSend g then some g else none
  | none => none
def pickFrame (k : Link) (ok : Frame → Bool) : Option Frame := k.ifCredit (k.tx.find? ok)
/-- The request frame that leaves next: lowest CLASS, in arrival order within it. -/
def pickRequest (k : Link) : Option Frame :=
  k.ifCredit ((List.range 8).findSome? fun c => k.tx.find? fun f => f.vl = 1 && decide (4 ≤ f.type) && decide (f.cls = c))
def isMgmt (f : Frame) : Bool := decide (2 ≤ f.type) && decide (f.vl = 0)
/-- The next frame of a link's output (R308); `mgmt` says that the block may begin management frames. -/
def Link.next (k : Link) (mgmt : Bool) : Option Frame :=
  let other := ((pickFrame k fun f => f.vl = 3).or (pickFrame k fun f => f.vl = 2)).or (pickRequest k)
  match pickFrame k fun f => linkLocal f.type with
  | some f => some f
  | none => match pickFrame k isMgmt with
    | some f => if mgmt || other.isNone then some f else other
    | none => other
/-- A link's output while it trains carries HAREBELL alone (R313). -/
def Link.nextFor (k : Link) (mgmt : Bool) : Option Frame :=
  if k.up then k.next mgmt else pickFrame k fun f => linkLocal f.type
/-- Fill a block's frame bytes with frames. The fuel bounds the frames: each takes 16 bytes or more. -/
def Link.fill (k : Link) (mgmt : Bool) : Nat → List Byte → Nat → Bool → Link × List Byte × Nat × Bool
  | 0, b, n, m => (k, b, n, m)
  | fuel + 1, b, n, m =>
    if blockFrameBytes ≤ b.length then (k, b, n, m)
    else match k.nextFor mgmt with
      | none => (k, b, n, m)
      | some f =>
        let spent := if linkLocal f.type then k.spent
          else Tab.put zeroTab k.spent f.vl ((Tab.get zeroTab k.spent f.vl + creditsFor f) % 65536)
        Link.fill { k with tx := k.tx.erase f, spent := spent, txCounted := !linkLocal f.type } mgmt fuel (b ++ frameBytes f) (n + if linkLocal f.type then 0 else 1)
          (m || isMgmt f)
/-- The link puts its next block on Ln_TXD: a block of a replay, a new block, or an IDLE one. -/
def Link.send (k : Link) : Link :=
  match k.resend.bind fun n => k.replay.find? fun b => b.number = n with
  | some b =>
    let next := (b.number + 1) % 4096
    { k with resend := if k.replay.any fun q => q.number = next then some next else none
             txBytes := k.txBytes, txBlock := k.trailer false b.number b.bytes }
  | none =>
    let idle := k.trailer true 0 (List.replicate blockFrameBytes 0)
    if 256 ≤ k.replay.length ∨ (k.txBytes.isEmpty ∧ (k.nextFor (decide (15 ≤ k.sinceMgmt))).isNone) then
      { k with txBlock := idle, resend := none, sinceMgmt := min 15 (k.sinceMgmt + 1) }
    else
      let r := k.fill (decide (15 ≤ k.sinceMgmt)) 64 k.txBytes 0 false
      let body := r.2.1.take blockFrameBytes ++ List.replicate (blockFrameBytes - r.2.1.length) 0
      let number := if k.up then (k.txNumber + 1) % 4096 else 0
      { r.1 with
        resend := none, txBytes := r.2.1.drop blockFrameBytes, txNumber := number
        replay := if k.up then k.replay ++ [{ number := number, begun := r.2.2.1, cont := k.txCounted && !k.txBytes.isEmpty, bytes := body }] else k.replay
        sinceMgmt := if r.2.2.2 then 0 else min 15 (k.sinceMgmt + 1)
        txBlock := k.trailer false number body }
/-- ACK covers the blocks of the replay buffer up to the one it names. -/
def ackTo (n : Nat) (l : List TxBlock) : List TxBlock :=
  if l.any fun b => b.number = n then (l.dropWhile fun b => b.number ≠ n).drop 1 else l
/-- What a good trailer tells the sender: ACK, CREDIT and NAK; a NAK during a replay begins no other. -/
def Link.trailerIn (k : Link) (b : List Byte) : Link :=
  let ack := fieldAt b 0x3F2 2 % 4096
  let credit := (List.range 4).map fun i => (i, fieldAt b (0x3F4 + 2 * i) 2)
  let k1 := { k with replay := ackTo ack k.replay, peerFreed := Tab.putAll zeroTab k.peerFreed credit }
  if bitOf (fieldAt b 0x3F0 2) 12 ∧ k1.resend.isNone ∧ !k1.replay.isEmpty then
    { k1 with replays := satAdd u32Max k1.replays 1, resend := some ((ack + 1) % 4096) }
  else k1
/-- A frame's buffer is kept until its own command takes it; CTL and JRN take MALTUR and TWIN frames at once, an unknown
type is dropped and counted (R305). -/
def Link.store (own : Option Nat) (k : Link) (f : Frame) : Link :=
  if linkLocal f.type then k
  else if !frameTypeKnown f.type then { (k.free f) with dropped := satAdd u32Max k.dropped 1 }
  else if own = some f.dest ∧ (f.type = 4 ∨ (0x1C ≤ f.type ∧ f.type ≤ 0x1F)) then k.free f
  else { k with rx := k.rx ++ [f] }
/-- The frame bytes of an accepted block. -/
def Link.accept (own : Option Nat) (k : Link) (number : Nat) (b : List Byte) : Link :=
  let r := framesIn 64 (k.rxBytes ++ b.take blockFrameBytes)
  r.1.foldl (Link.store own) { k with rxNumber := number, nak := false, rxBytes := r.2 }
def blockGood (b : List Byte) : Bool := decide (fieldAt b 0x3FC 4 = crc32c (b.take 0x3FC))
/-- A block that arrives on a training or up link. -/
def Link.receive (own : Option Nat) (k : Link) (b : List Byte) : Link :=
  let seq := fieldAt b 0x3F0 2
  if !blockGood b then { k with crcErrors := satAdd u32Max k.crcErrors 1, errs := k.errs + 1, nak := k.up }
  else if !k.up then k
  else
    let k1 := k.trailerIn b
    if bitOf seq 13 then k1
    else if seq % 4096 = (k.rxNumber + 1) % 4096 then k1.accept own (seq % 4096) b else { k1 with nak := true }
/-- A block of FILL frames alone. -/
def Link.idle (k : Link) : List Byte := k.trailer true 0 (List.replicate blockFrameBytes 0)
/-- LINK_BLOCK: both directions run at one rate, so one block leaves for each that comes (R299). Without lock the link ignores what
comes and sends FILL (R429). -/
def State.linkBlock (s : State) (l : Nat) (b : List Byte) : State :=
  let k := s.link l
  if !s.canTrain l ∨ b.length ≠ 1024 then s
  else if !k.lock then s.setLink l { k with txBlock := k.idle }
  else if k.state = 2 ∨ k.up then
    let k1 := k.receive s.fab.nodeId b
    let limit := s.obj 0x6043 0
    if limit ≠ 0 ∧ limit < k1.errs then ((s.setLink l k1).linkDown l).awaitLock l else s.setLink l k1.send
  else if !blockGood b then s.setLink l { k with good := 0, txBlock := k.idle }
  else if k.good + 1 < 4 then s.setLink l { k with good := k.good + 1, txBlock := k.idle }
  else s.setLink l ({ k with state := 2, good := 0, errs := 0, beacons := 0 } : Link).send
def execLinkBlock (link : Nat) (bytes : List Byte) (s : State) : Host.Outcome State Fault Refusal := .next (s.linkBlock link bytes)

end Sys2Proof.Machine
end

