-- ==== Sys2Proof/Machine/Nodes.lean ====
section
/-! DEFINITION. The nodes of the fabric: adverts in (R319, R321), routes (R322, R323), identifiers (R316 to R320), frames for other
nodes (R305, R328) and the escape lane (R310, R311). -/
namespace Sys2Proof.Machine

/-- The node passes frames on: not in HALT, in conflict or without room for it (R315, R319, R320). -/
def State.forwards (s : State) : Bool := s.ctl.mode ≠ .halt && decide (s.fab.nodeState ≠ 2) && decide (s.fab.nodeState ≠ 3)

/-! ## ADVERT (R319, R321) -/

/-- Another node with a lower serial holds this node's identifier. -/
def State.meetConflict (s : State) (a : Advert) : State :=
  if s.fab.nodeState = 1 ∧ s.fab.nodeId = some a.node ∧ a.serial < s.ownSerial then
    ({ s with fab := { s.fab with nodeState := 3 } } : State).raise .nodeConflict
  else s
/-- No advert of the node is held that is as new. -/
def State.newerAdvert (s : State) (a : Advert) : Bool :=
  (s.fab.adverts.find? fun e => e.1 = a.serial).all fun e => decide (e.2.seq < a.seq)
def State.keepAdvert (s : State) (a : Advert) : State :=
  let s1 := s.hearNode a.serial
  { s1 with fab := { s1.fab with adverts := Tab.insert a.serial a s1.fab.adverts } }
def State.countDrop (s : State) (l : Nat) : State :=
  s.setLink l { s.link l with dropped := satAdd u32Max (s.link l).dropped 1 }
/-- A frame of the management lane is passed on by `send` with the SRC it came with and one hop less; at HOPS 0 it is dropped and
counted (R303, R305). -/
def State.passOn (s : State) (l : Nat) (f : Frame) (send : State → Frame → State) : State :=
  if f.hops = 0 then s.countDrop l else send s { f with hops := f.hops - 1 }
/-- ADVERT_SEQ moves beyond that of an advert of the node's own (R321). -/
def State.passSeq (s : State) (seq : Nat) : State := { s with fab := { s.fab with advertSeq := (seq + 1) % 2 ^ 32 } }
def State.advertIn (s : State) (l : Nat) (a : Advert) : State :=
  if s.ctl.mode = .halt ∨ !(s.link l).up then s
  else
    let f := s.rxFrame (advertFrame a a.node)
    let s1 := s.takeRx f
    if a.serial = s.ownSerial then
      if s.fab.advertSeq ≤ a.seq then (s1.passSeq a.seq).floodAdvert else s1
    else if !s.newerAdvert a then s1.meetConflict a
    else if s.forwards then ((s1.keepAdvert a).passOn l f fun t g => t.sendAdvert g (some l)).meetConflict a
    else (s1.keepAdvert a).meetConflict a
def execAdvert (link : Nat) (adv : Advert) (s : State) : Host.Outcome State Fault Refusal := .next (s.advertIn link adv)

/-! ## Routes (R322) -/

/-- Two nodes' adverts agree that a link between them is up. -/
def linked (a b : Advert) : Bool :=
  (a.neighbours.any fun n => n.2 && decide (n.1 = b.node)) && (b.neighbours.any fun n => n.2 && decide (n.1 = a.node))
/-- The nodes at each distance from a first set: (distance, advert). The fuel bounds the distance. -/
def reach (all : List Advert) : Nat → Nat → List Advert → List Advert → List (Nat × Advert)
  | 0, _, _, _ => []
  | n + 1, d, seen, front =>
    if front.isEmpty then []
    else
      let next := all.filter fun a => !(seen.any fun b => b.serial = a.serial) && front.any fun b => linked b a
      (front.map fun a => (d, a)) ++ reach all n (d + 1) (seen ++ next) next
/-- The paths by a first link: for each node, its number and its hops. The far end of the node's own link is known by the
neighbour's beacons; of two other nodes' parallel links the adverts say only that both nodes have one up (assumption log 100). -/
def pathsBy (own : Advert) (others : List Advert) (l farEnd : Nat) : List (Nat × Nat) :=
  match own.neighbours[l]? with
  | some (n, true) =>
    let first := others.filter fun a => decide (a.node = n) && decide (a.neighbours[farEnd]? = some (own.node, true))
    (reach others others.length 1 first first).map fun e => (e.2.node, e.1)
  | _ => []
/-- The best of (hops, link): fewest hops, then the lowest link. -/
def bestPath (l : List (Nat × Nat)) : Option (Nat × Nat) :=
  l.foldl (fun m e => match m with
    | none => some e
    | some a => if e.1 < a.1 ∨ (e.1 = a.1 ∧ e.2 < a.2) then some e else some a) none
/-- The entry of a node from the paths by each link: at most 15 hops (R322). -/
def entryFor (paths : List (Nat × List (Nat × Nat))) (n : Nat) : RouteEntry :=
  let cands := paths.filterMap fun p => (p.2.find? fun e => decide (e.1 = n) && decide (e.2 ≤ 15)).map fun e => (e.2, p.1)
  match bestPath cands with
  | none => {}
  | some (h, l) =>
    match bestPath (cands.filter fun e => e.2 ≠ l) with
    | some (_, a) => { primary := l, alternate := a, hops := h, primaryValid := true, altValid := true }
    | none => { primary := l, hops := h, primaryValid := true }
/-- The node's own stored advert. -/
def State.ownAdvert (s : State) : Advert :=
  match s.fab.adverts.find? fun e => e.1 = s.ownSerial with
  | some e => e.2
  | none => s.advertNow s.fab.advertSeq
/-- The adverts of other nodes that may stand on a route: those with another identifier than its own. -/
def State.otherAdverts (s : State) : List Advert :=
  (s.fab.adverts.filter fun e => decide (e.1 ≠ s.ownSerial) && decide (s.fab.nodeId ≠ some e.2.node)).map (·.2)
def State.routesNow (s : State) : Tab RouteEntry :=
  let own := s.ownAdvert
  let others := s.otherAdverts
  let paths := (List.range 16).map fun l => (l, pathsBy own others l (s.link l).peerLink)
  let nodes := (others.map (·.node)).eraseDups
  Tab.putAll (fun _ => {}) [] (nodes.map fun n => (n, entryFor paths n))
/-- Adverts whose node can still be reached: over links both ends advertise, or, without an identifier, a neighbour of a
node reached. -/
def State.stillPresent (s : State) : Tab Advert :=
  let own := s.ownAdvert
  let all := s.fab.adverts.map (·.2)
  let got := (reach all all.length 0 [own] [own]).map (·.2)
  s.fab.adverts.filter fun e => decide (e.1 = s.ownSerial) || (got.any fun a => a.serial = e.1) ||
    (decide (e.2.node = 4095) && e.2.neighbours.any fun n => n.2 && (decide (s.fab.nodeId = some n.1) || got.any fun a => a.node = n.1))
/-- The assigner has left: it is neither this node, nor of the nodes whose adverts are kept, nor a neighbour (R316; DEDUCED,
assumption log 100). -/
def State.rootGone (s : State) (kept : Tab Advert) : Bool :=
  !s.isRoot && !(kept.any fun e => e.1 = s.root) && !(s.upLinks.any fun e => e.2.peerSerial = s.root)
/-- When the assigner has left, the next lowest serial takes its role (R316). -/
def State.rootNow (s : State) (kept : Tab Advert) : Option Nat :=
  if s.rootGone kept then some ((kept.map (·.1) ++ s.upLinks.map (·.2.peerSerial)).foldl min s.ownSerial) else s.fab.rootSerial

/-- ROUTE_RECOMPUTE completes: nodes not reached are forgotten, the entries are replaced, ON_ALT clears. The assigner's table takes
in the nodes of the adverts it holds before any goes, so that ID_HOLD runs for each (R316, R318). -/
def State.recompute (s : State) : State :=
  let kept := s.stillPresent
  let s0 : State := { s with fab := { s.fab with
    rootSerial := s.rootNow kept, departed := if s.rootGone kept then s.root :: s.fab.departed else s.fab.departed } }
  let s1 : State := { s0 with fab := { s0.fab with adverts := kept, assigned := if s0.isRoot then s0.idTable else s0.fab.assigned } }
  ({ s1 with fab := { s1.fab with routes := s1.routesNow } } : State).wakeRoutes
def execRouteRecompute (s : State) : Host.Outcome State Fault Refusal := .next s.recompute

/-! ## ASSIGN (R317, R318, R320) -/

/-- The node's answer as ASSIGN's NODE field gives it. -/
def assignNode (id : Option Nat) : Nat := match id with
  | some n => n + 4096
  | none => 4095 + 2 * 4096
def State.assignRequest (s : State) (l serial preferred : Nat) : State :=
  if !s.forwards then s
  else
    let f := s.rxFrame (assignFrame false serial preferred 4095)
    let s1 := s.takeRx f
    if s.isRoot then
      let id := s.idFor serial preferred
      (s1.give serial id).queueFrame l (assignFrame true serial (assignNode id) s.nodeNum)
    else match s.parentLink with
      | some e =>
        ({ s1 with fab := { s1.fab with returns := Tab.insert serial l s1.fab.returns } } : State).passOn l f
          fun t g => t.queueFrame e.1 g
      | none => s1
def execAssignRequest (link serial preferred : Nat) (s : State) : Host.Outcome State Fault Refusal :=
  .next (s.assignRequest link serial preferred)
/-- The assigner's identifier, as its advert gives it. -/
def State.rootNode (s : State) : Nat := match s.fab.adverts.find? fun e => e.1 = s.root with
  | some e => e.2.node
  | none => 4095
/-- An answer for this node, or for a node whose request went through this one. -/
def State.assignAnswer (s : State) (l serial node state : Nat) : State :=
  let f := s.rxFrame (assignFrame true serial (node % 4096 + state * 4096) s.rootNode)
  let s1 := s.takeRx f
  if s.ctl.mode = .halt then s
  else if serial = s.ownSerial then
    if s.fab.nodeState = 0 ∨ s.fab.nodeState = 2 then s1.takeId (if state = 2 then none else some (node % 4096)) else s1
  else match s.fab.returns.find? fun e => e.1 = serial with
    | some e => if s.forwards then
        ({ s1 with fab := { s1.fab with returns := Tab.erase serial s1.fab.returns } } : State).passOn l f
          fun t g => t.queueFrame e.2 g
      else s1
    | none => s1
def execAssignAnswer (link serial node state : Nat) (s : State) : Host.Outcome State Fault Refusal :=
  .next (s.assignAnswer link serial node state)
def execAssignRetry (s : State) : Host.Outcome State Fault Refusal :=
  .next (if s.fab.nodeState = 2 ∧ s.ctl.mode ≠ .halt then s.askId else s)
/-- ID_HOLD passes after a node was last seen: its identifier is free (R318). -/
def State.holdExpires (s : State) (serial : Nat) : State :=
  if s.obj 0x6005 0 = 0 ∨ !s.isRoot ∨ serial = s.ownSerial ∨ (s.fab.adverts.any fun e => e.1 = serial) then s
  else { s with fab := { s.fab with assigned := s.fab.assigned.filter fun e => e.1 ≠ serial } }
def execIdHoldExpiry (serial : Nat) (s : State) : Host.Outcome State Fault Refusal := .next (s.holdExpires serial)
/-- RENUMBER (R319, R335): the node leaves CONFLICT and asks for a new identifier. -/
def State.renumber (s : State) : Reply :=
  if s.fab.nodeState ≠ 3 then .refuse abortState
  else .ok ({ s with fab := { s.fab with nodeState := 0, nodeId := none, assigned := s.fab.assigned.filter fun e => e.1 ≠ s.ownSerial,
                                         adverts := Tab.erase s.ownSerial s.fab.adverts } } : State).askId

/-! ## The escape lane and forwarding (R310, R311, R328) -/

/-- The child of this node below which a node lies in the tree, by the PARENT fields. The fuel bounds the climb. -/
def State.childToward (s : State) (own : Nat) : Nat → Nat → Option Nat
  | 0, _ => none
  | fuel + 1, n => match s.fab.adverts.find? fun e => e.2.node = n with
    | some e => if e.2.parent = own then some n else if e.2.parent = 4095 then none else State.childToward s own fuel e.2.parent
    | none => none
def State.linkTo (s : State) (n : Nat) : Option Nat := (s.upLinks.find? fun e => e.2.peerNode = n).map (·.1)
/-- The next hop of a frame along the tree, and the frame as it goes: down with DOWN set, or up where it never went down; the root
has no up link. -/
def State.treeHop (s : State) (f : Frame) : Option (Nat × Frame) :=
  match s.childToward s.nodeNum s.fab.adverts.length f.dest with
  | some c => (s.linkTo c).map fun l => (l, { f with vl := 3, down := true })
  | none => if f.down || s.isRoot then none else s.parentLink.map fun e => (e.1, { f with vl := 3 })
/-- FRAME_FORWARD: by the route table with one hop less, or along the tree; a frame at HOPS 0 is dropped and counted. One that no
route or tree hop leads on is lost, and no counter of the spec has it (assumption log 86). -/
def State.forward (s : State) (l : Nat) (f : Frame) : State :=
  if s.ctl.mode = .halt ∨ s.fab.nodeId = some f.dest ∨ !routable f then s
  else
    let s1 := s.takeRx f
    if !frameTypeKnown f.type ∨ f.hops = 0 then s1.countDrop l
    else if !s.forwards then s1
    else if f.vl = 3 then (match s1.treeHop f with
      | some (m, g) => s1.queueFrame m g
      | none => s1)
    else if s.routed f.dest then s1.queueFrame (s.outLink f.dest) { f with hops := f.hops - 1 } else s1
def execFrameForward (link : Nat) (frame : Frame) (s : State) : Host.Outcome State Fault Refusal := .next (s.forward link frame)
/-- ESCAPE_WAIT: a frame without credit on its own lane moves to the escape lane, where that has credit (R311). -/
def State.escape (s : State) (l : Nat) (f : Frame) : State :=
  let k := s.link l
  if !k.tx.contains f ∨ f.vl = 3 ∨ !routable f ∨ k.canSend f then s
  else match s.treeHop f with
    | some (m, g) =>
      if (s.link m).canSend g then (s.setLink l { k with tx := k.tx.erase f }).queueFrame m g else s
    | none => s
def execEscapeWait (link : Nat) (frame : Frame) (s : State) : Host.Outcome State Fault Refusal := .next (s.escape link frame)

end Sys2Proof.Machine
end

