-- ==== Sys2Proof/Machine/Fabric.lean ====
section
/-! DEFINITION. Requests between nodes: those that arrive (R112, R305, R306, R324, R325, R329 to R331) and the answers to
this node's own (R256, R306, R326, R327). -/
namespace Sys2Proof.Machine

/-! ## Requests that arrive -/

/-- A frame has reached this node. -/
def State.arrives (s : State) (f : Frame) (type : Nat) : Bool :=
  decide (f.type = type) && decide (s.fab.nodeId = some f.dest) && s.ctl.mode ≠ .halt
/-- The type that answers a request; RD_DATA carries no RESULT, so a refused read is answered by WR_RESP (assumption log 25). -/
def answerType (t : Nat) : Nat := if t = 0x10 then 0x13 else t + 1
def State.answer (s : State) (f : Frame) (result : Nat) : State :=
  s.sendFrame (ansFrame (answerType f.type) f.src f.tag f.cls result [])
/-- INBOUND_SET grants the right for n bytes from a local address (R325). -/
def State.inboundOk (s : State) (right a n : Nat) : Bool :=
  decide (s.obj 0x6030 0 ≠ 65535) && (s.firstDenied (s.obj 0x6030 0) right a n).isNone
/-- The requester of an access for another node is the link its request came in on (R236). -/
def linkCarrier (l : Nat) (f : Frame) (o : Owner) : Carrier := { owner := o, requester := linkReq l, cls := f.cls, locked := false }
/-- Some byte of [a, a + n) lies in no port's range (R419). -/
def State.someNowhere (s : State) (write : Bool) (a n : Nat) : Bool :=
  (sideBeats (lineSide a n) n 0).any fun b => s.place write b.2.2 = .nowhere
/-- A read request (R305, R325). -/
def State.serveRead (s : State) (l : Nat) (f : Frame) : State :=
  let n := fieldAt f.payload 0 2 % 8192
  if n = 0 then s
  else if !s.inboundOk rightRead f.word n then s.answer f 2
  else if s.someNowhere false f.word n then s.answer f 1
  else
    (({ s with fab := { s.fab with serving := s.fab.serving ++ [f] } } : State)).presentReads
      (linkCarrier l f (.inboundRead f.src f.tag)) 0 (lineSide f.word n) 0 n
/-- A write request (R305, R325). -/
def State.serveWrite (s : State) (l : Nat) (f : Frame) : State :=
  let runs := writeRuns f
  if !runs.all fun e => s.inboundOk rightWrite e.1 e.2.length then s.answer f 2
  else if runs.any fun e => s.someNowhere true e.1 e.2.length then s.answer f 1
  else if runs.isEmpty then s.answer f 0
  else
    runs.foldl (fun t e => t.presentWrites (linkCarrier l f (.inboundWrite f.src f.tag)) (lineSide e.1 e.2.length) 0 e.2)
      { s with fab := { s.fab with serving := s.fab.serving ++ [f] } }
def State.serveRelease (s : State) (f : Frame) : State := ((s.poolRelease (pieceOf f)).poolRun).answer f 0
/-- POOL discards the unit whole and records it as aborted (R207, R469). -/
def State.serveDiscard (s : State) (f : Frame) : State := ((s.poolDiscard (pieceOf f)).poolRun).answer f 0
/-- The segments and seals that were refused at the galley of the notice's sender are issued again (R331). -/
def State.serveRoom (s : State) (f : Frame) : State :=
  let g := (pieceOf f).galley
  let there (ref : Nat) : Bool := !s.galleyLocal ref && decide (galleyNo ref = g) && decide (galleyNode ref = f.src)
  (s.ctxs.foldl (fun t e => if (s.run e.1).isSome then t.reissueIf e.1 g there fun _ => true else t) s).answer f 0
/-- A marker: the ops that have issued an access by now are its earlier ops; it is answered once all of them are
acknowledged, and the command's repetition looks again (assumption log 5). -/
def State.serveMark (s : State) (f : Frame) : State :=
  let s1 : State := if s.fab.markers.any fun m => decide (m.1 = f.src) && decide (m.2.1 = f.tag) then s
    else { s with fab := { s.fab with markers := s.fab.markers ++ [(f.src, f.tag, s.earlierOps fun _ => true)] } }
  match s1.fab.markers.find? fun m => decide (m.1 = f.src) && decide (m.2.1 = f.tag) with
  | some m =>
    if m.2.2.all fun e => !s1.opUnacked e then
      ({ s1 with fab := { s1.fab with markers := s1.fab.markers.filter fun q => !(decide (q.1 = f.src) && decide (q.2.1 = f.tag)) } } :
        State).answer f 0
    else s1
  | none => s1
/-- Serve a request of any of the six types that came in on a link. -/
def State.serveFrame (s : State) (l : Nat) (f : Frame) : State :=
  match f.type with
  | 0x10 => s.serveRead l f
  | 0x12 => s.serveWrite l f
  | 0x14 => { s with pool := { s.pool with pieces := s.pool.pieces ++ [pieceOf f] } }
  | 0x16 => { s with pool := { s.pool with seals := s.pool.seals ++ [pieceOf f] } }
  | 0x18 =>
    (match f.word % 256 with
     | 1 => s.serveRelease f
     | 2 => s.serveDiscard f
     | 3 => s.serveRoom f
     | _ => s)
  | 0x1A => s.serveMark f
  | _ => s
/-- A request arrives: served, held or refused by the node's mode (R324). -/
def State.inbound (s : State) (f : Frame) (type : Nat) (named : Bool) : State :=
  if !s.arrives f type || !named then s
  else
    let s1 := s.takeRx f
    let l := s.rxLink f
    match s.ctl.mode with
    | .recover => { s1 with fab := { s1.fab with held := if s1.fab.held.any fun e => e.2 = f then s1.fab.held else s1.fab.held ++ [(l, f)] } }
    | .config => s1.answer f 3
    | .survey => s1.answer f 3
    | _ => s1.serveFrame l f
/-- What RECOVER has held is served when it ends (R324). -/
def State.serveHeld (s : State) : State :=
  s.fab.held.foldl (fun t e => t.serveFrame e.1 e.2) { s with fab := { s.fab with held := [] } }
def execRdReq (frame : Frame) (s : State) : Host.Outcome State Fault Refusal := .next (s.inbound frame 0x10 true)
def execWrReq (frame : Frame) (s : State) : Host.Outcome State Fault Refusal := .next (s.inbound frame 0x12 true)
def execPiece (frame : Frame) (s : State) : Host.Outcome State Fault Refusal := .next (s.inbound frame 0x14 true)
def execSeal (frame : Frame) (s : State) : Host.Outcome State Fault Refusal := .next (s.inbound frame 0x16 true)
def execNoticeRelease (frame : Frame) (s : State) : Host.Outcome State Fault Refusal := .next (s.inbound frame 0x18 (frame.word % 256 = 1))
def execNoticeDiscard (frame : Frame) (s : State) : Host.Outcome State Fault Refusal := .next (s.inbound frame 0x18 (frame.word % 256 = 2))
def execNoticeRoom (frame : Frame) (s : State) : Host.Outcome State Fault Refusal := .next (s.inbound frame 0x18 (frame.word % 256 = 3))
def execRuleMark (frame : Frame) (s : State) : Host.Outcome State Fault Refusal := .next (s.inbound frame 0x1A true)
/-- POOL has a piece or a seal of the request before it. -/
def State.poolServes (s : State) (src tag : Nat) : Bool :=
  (s.pool.pieces.any fun p => p.remote = some (src, tag)) || (s.pool.seals.any fun p => p.remote = some (src, tag)) ||
    s.pool.galleys.any fun e => e.2.sealing.any fun x => x.piece.remote = some (src, tag)
/-- An access that the service of a request waits for: its own, one of an op that its marker waits for, or one of POOL's. -/
def State.servesReq (s : State) (src tag : Nat) (o : Owner) : Bool :=
  match o with
  | .inboundRead a t => decide (a = src) && decide (t = tag)
  | .inboundWrite a t => decide (a = src) && decide (t = tag)
  | .pool => s.poolServes src tag
  | o => s.fab.markers.any fun m => decide (m.1 = src) && decide (m.2.1 = tag) && m.2.2.any fun e => o.op = some e
/-- The service of a request waits on MPn_HOLD, on a domain stall or on RECOVER (R326); under HOLD too, whatever R356 says of counts
that stand still (assumption log 25). -/
def State.serviceWaits (s : State) (src tag : Nat) : Bool :=
  (s.fab.held.any fun e => decide (e.2.src = src) && decide (e.2.tag = tag)) ||
    s.ports.any fun e => (e.2.hold || s.portDown e.1) && e.2.has (s.servesReq src tag)
def State.busySend (s : State) (src tag : Nat) : State :=
  if s.obj 0x6040 0 ≠ 0 ∧ s.serviceWaits src tag then s.sendFrame { type := 0x20, vl := 2, dest := src, tag := tag } else s
def execBusySend (src tag : Nat) (s : State) : Host.Outcome State Fault Refusal := .next (s.busySend src tag)

/-! ## This node's own requests: errors and retries (R256, R306, R326) -/

def State.dropRemote (s : State) (r : Remote) : State := { s with fab := { s.fab with remotes := s.fab.remotes.filter (· ≠ r) } }
/-- An attempt goes out under a new tag, or waits for a route. -/
def State.resendRemote (s : State) (r : Remote) (tag : Nat) : State :=
  let f := { r.frame with tag := tag }
  let old := match r.owner with
    | .ruleMark .. => r.oldTags ++ [r.tag]
    | _ => []
  let q := { r with tag := tag, frame := f, attempts := r.attempts + 1, got := 0, busErr := !s.routed f.dest, oldTags := old }
  (({ s with fab := { s.fab with remotes := s.fab.remotes.map fun x => if x = r then q else x } } : State)).sendFrame f
/-- A tag not in use: the one named, if it is free (R326). -/
def State.freshTag (s : State) (tag : Nat) : Nat := if s.fab.remotes.any fun r => r.tag = tag then s.fab.nextTag else tag
def State.retryRemote (s : State) (r : Remote) (tag : Nat) : State :=
  let t := s.freshTag tag
  ({ s with fab := { s.fab with nextTag := (max s.fab.nextTag t + 1) % 65536 } } : State).resendRemote r t
/-- A segment whose piece has failed is not delivered there. -/
def State.pieceLost (s : State) (c serial seg dest : Nat) : State :=
  let more := s.owners.any fun o => match o with
    | .piece c' n g _ => decide (c' = c) && decide (n = serial) && decide (g = seg)
    | _ => false
  s.modRun c fun q => q.modSeg seg fun g => { g with refusals := g.refusals ++ [dest], state := if more then g.state else .refused }
/-- A request fails for good. `unit` is DETAIL for a frame that names no device address. -/
def State.failRemote (s : State) (r : Remote) (f : FaultRec) (unit : Nat) : State :=
  let s1 := s.dropRemote r
  let opFault (c n off : Nat) : State :=
    let current := match s1.run c with
      | some q => decide (q.serial = n)
      | none => decide (s1.opSerial c = some n)
    if current then s1.failOp c { f with offset := off }
    else if s1.journaled then
      (s1.modItem c fun it => { it with lostRemotes := it.lostRemotes ++ [r] }).fail c { f with offset := s1.doneOffset c, signal := true }
    else s1.postedFault c n r.first
  match r.owner with
  | .opRead c n seg => (opFault c n r.offset).readEnded c n seg
  | .opWrite c n seg => opFault c n (match s1.run c with
    | some q => q.writeOffset seg r.offset
    | none => r.offset)
  | .result c n => opFault c n (match s1.run c with
    | some q => q.total
    | none => 0)
  | .ending c => s1.endFault c r.first 255 r.attempts
  | .piece c n seg d => (s1.pieceLost c n seg d).failOp c { f with offset := seg, detail := unit, address := 0 }
  | .seal c _ _ => s1.failOp c { f with
      offset := (match s1.run c with
        | some q => q.total
        | none => 0), detail := unit, address := 0 }
  | .ruleMark c _ => (s1.ruleLost c).failOp c { f with detail := unit, address := 0 }
  | _ => s1
/-- A bus error of a remote request: it is tried again, up to BUS_RETRIES times; a notice without limit (R331). The bytes before a
failed read's are written meanwhile (R259). -/
def State.remoteError (s : State) (r : Remote) (cause tag : Nat) : State :=
  let n := s.obj 0x4010 0
  let forever := match r.owner with
    | .notice _ => true
    | _ => false
  if (forever || n = 0 || decide (r.attempts ≤ n)) && !s.readsStopped r.owner then (s.retryRemote r tag).endGrant r.owner (r.offset + r.got)
  else (s.nextFree).failRemote r
    { offset := r.offset, status := .busFault, detail := r.first, cause := cause, port := 255, attempts := r.attempts, address := r.first }
    (Config.frameDetail s.free).toNat

/-! ## Answers -/

/-- The request of this node that a frame answers; an abandoned attempt's answer finds none (R326), but for a marker: a RULE
completes when either answer arrives (R332). -/
def State.asked (s : State) (f : Frame) : Option Remote :=
  (s.fab.remotes.find? fun r => decide (r.tag = f.tag) && decide (r.frame.dest = f.src) && !r.busErr).or
    (s.fab.remotes.find? fun r => r.oldTags.contains f.tag && decide (r.frame.dest = f.src))
/-- The answer that a RESULT gives for a piece (R306); the ground of a REFUSED is open (assumption log 73). -/
def State.poolAnswerOf (s : State) (n : Nat) : Option PoolAnswer :=
  match n with
  | 0 => some .ok
  | 4 => some (s.remoteGround false)
  | 5 => some .flushed
  | 6 => some .badPattern
  | 7 => some .noGalley
  | _ => none
/-- Rows of a PART's piece. -/
def State.pieceRows (s : State) (c : Nat) (f : Frame) : Nat :=
  match s.run c with
  | some r => (match r.op with
    | .part n _ _ _ => if n = 0 then 0 else (f.payload.length - 32) / n
    | _ => 0)
  | none => 0
/-- Read data (R305): the bytes of the request that the frame carries. -/
def State.readAnswer (s : State) (r : Remote) (f : Frame) : State :=
  if f.word < r.frame.word then s
  else
    let d := f.word - r.frame.word
    let data := f.payload.take (r.len - d)
    let got := r.got + data.length
    let s1 := if r.len ≤ got then s.dropRemote r
      else { s with fab := { s.fab with remotes := s.fab.remotes.map fun q => if q = r then { q with got := got } else q } }
    match r.owner with
    | .opRead c n seg => s1.captureBytes c n seg r.side (r.offset + d) data
    | _ => s1
/-- A RESULT for a request (R306). -/
def State.result (s : State) (r : Remote) (code : Nat) : State :=
  match r.owner, s.poolAnswerOf code with
  | .piece c n seg d, some a =>
    (s.nextFree.dropRemote r).pieceAnswered c n seg d (fieldAt r.frame.payload 0x18 4) (s.pieceRows c r.frame) a
  | .seal c n d, some a => (s.nextFree.dropRemote r).sealAnswered c n d (if code = 4 then s.remoteGround true else a)
  | .ruleMark c node, some .ok =>
    let s1 := s.dropRemote r
    { s1 with sched := { s1.sched with rules := s1.sched.rules.map fun q => if q.ctx = c then { q with nodes := q.nodes.filter (· ≠ node) } else q } }
  | _, some .ok => (s.dropRemote r).writeAnswered 255 none r.owner
  | _, _ => s.remoteError r 7 s.fab.nextTag
/-- An answer frame of a type arrives. -/
def State.answered (s : State) (f : Frame) (type : Nat) : State :=
  if !s.arrives f type then s
  else
    let s1 := s.takeRx f
    match s1.asked f with
    | none => s1
    | some r => if type = 0x11 then s1.readAnswer r f else s1.result r (f.word % 256)
def execRdData (frame : Frame) (s : State) : Host.Outcome State Fault Refusal := .next (s.answered frame 0x11)
def execWrResp (frame : Frame) (s : State) : Host.Outcome State Fault Refusal := .next (s.answered frame 0x13)
def execPieceAns (frame : Frame) (s : State) : Host.Outcome State Fault Refusal := .next (s.answered frame 0x15)
def execSealAns (frame : Frame) (s : State) : Host.Outcome State Fault Refusal := .next (s.answered frame 0x17)
def execNoticeAns (frame : Frame) (s : State) : Host.Outcome State Fault Refusal := .next (s.answered frame 0x19)
def execRuleAns (frame : Frame) (s : State) : Host.Outcome State Fault Refusal := .next (s.answered frame 0x1B)
/-- BUSY restarts the originator's count, which the model does not hold (assumption log 4). -/
def execBusy (frame : Frame) (s : State) : Host.Outcome State Fault Refusal :=
  .next (if s.arrives frame 0x20 then s.takeRx frame else s)
/-- REMOTE_TIMEOUT (R326): a bus error of the request. -/
def State.remoteTimeout (s : State) (tag newTag : Nat) : State :=
  if s.obj 0x6040 0 = 0 then s
  else match s.fab.remotes.find? fun r => r.tag = tag && !r.busErr with
    | some r => s.remoteError r 3 (newTag % 65536)
    | none => s
def execRemoteTimeout (tag newTag : Nat) (s : State) : Host.Outcome State Fault Refusal := .next (s.remoteTimeout tag newTag)

/-! ## ROUTE_WAIT (R112, R327) -/

/-- The channel of a request, notices and markers included. -/
def Remote.channel (r : Remote) : Option Nat :=
  match r.owner with
  | .notice c => some c
  | .ruleMark c _ => some c
  | o => o.channel
/-- The channel's requests that still have no route. -/
def State.unrouted (s : State) (c : Nat) : List Remote :=
  s.fab.remotes.filter fun r => r.busErr && decide (r.channel = some c) && !s.routed r.frame.dest
/-- The node a halt names: of a RULE the lowest of its set that has not answered and has no route now (R112), else the
request's own. -/
def State.unreachableNode (s : State) (r : Remote) : Nat :=
  match r.owner with
  | .ruleMark c _ =>
    let open' := (s.sched.rules.filter fun q => q.ctx = c).flatMap (·.nodes)
    (open'.filter fun n => !s.routed n).foldl min r.frame.dest
  | _ => r.frame.dest
def State.routeWait (s : State) (c : Nat) : State :=
  let unreachable (n off : Nat) : FaultRec := { offset := off, status := .nodeUnreachable, detail := n }
  if s.obj 0x6041 0 = 0 then s
  else
    let l := s.unrouted c
    let s1 := l.foldl (fun t r => if t.fab.remotes.contains r then
        t.failRemote r (unreachable (s.unreachableNode r) r.offset) (s.unreachableNode r) else t) s
    if legacyBase ≤ c then
      match (s1.slot (c - legacyBase)).stalled with
      | some (.route n off) =>
        let s2 := s1.setSlot (c - legacyBase) { s1.slot (c - legacyBase) with stalled := none }
        if s.reachable n then s2 else s2.failOp c (unreachable n off)
      | _ => s1
    else match (s1.ctx c).waitOn with
      | some (.route n off) => if s.reachable n then s1.unstall c else (s1.unstall c).fail c (unreachable n off)
      | _ => s1
def execRouteWait (ctx : Nat) (s : State) : Host.Outcome State Fault Refusal := .next (s.routeWait ctx)

end Sys2Proof.Machine
end

