-- ==== Sys2Proof/Machine/Service.lean ====
section
/-! DEFINITION. Islands: masks and cuts (R234, R235), re-execution (R53, R282), resets of one island (R349, R352), retirement
and return (R453 to R458), power (R353), stash ports (R363 to R366, R425 to R427), and the journal's epochs (R281). -/
namespace Sys2Proof.Machine

/-! ## Epochs (R273, R281, R283) -/

/-- The anchor is written, and with an open epoch the two images. -/
def State.writeImages (s : State) : State :=
  s.ctxs.foldl (fun t e => if e.2.state = .closed then t else t.writeCtxImage e.1) s.writeConfigImage
/-- The EPOCH OPEN record of the next epoch is issued. -/
def State.openRecord (s : State) (mode : Mode) (cause : Nat) : State :=
  let old := s.jrn.epoch
  let s1 : State := { s with jrn := { s.jrn with epoch := old + 1 } }
  s1.issueLocal { kind := .epoch, node := s.nodeNum, event := 1, mode := mode.code, cause := cause, prevEnd := s.jrn.head
                  prevEpoch := if s.jrn.anchorState = 0 then 0 else old
                  twin := if mode = .twin then s.obj 0x9020 0 % 4096 else 0 }
/-- The anchor follows the OPEN record; re-execution counts begin again (R167). -/
def State.openAnchor (s : State) (mode : Mode) (st target : Nat) : State :=
  let s1 : State := { s with
    jrn := { s.jrn with anchorState := st, anchorMode := mode.code, anchorTarget := target }
    ctxs := s.ctxs.map fun e => (e.1, { e.2 with items := e.2.items.map fun it => { it with reexec := 0 } }) }
  s1.writeImages.writeAnchor
/-- A new epoch within the mode (R281's CAUSE 3); behind FFFF_FFFFh, for which the spec has no rule here, the next one's number is
2^32, and its field reads 0 (DESIGN CHOICE, assumption log 99); what waits for it goes on once its record and anchor are written (R273). -/
def State.nextEpoch (s : State) : State :=
  let m := s.ctl.rulesOf
  let s1 := s.openRecord m 3
  let s2 := if m = .twin then ({ s1 with twin := { s1.twin with held := false } } : State).ship s.jrn.head (s.jrn.head + 1) false else s1
  let st := s2.jrn.anchorState
  s2.openAnchor m st (if st = 2 then s2.ctl.drainTarget else 0)

/-! ## Re-execution of an item (R53, R235, R282) -/

/-- JRN's scan ends (R282): an epoch that the items wait for opens once a position is free (R279, R281), and when its record and
anchor are written, and the sums of cut counter updates with them, the items begin. -/
def State.scanEnds (s : State) : State :=
  if s.jrn.epochDue then
    if admits s .epoch then ({ s with jrn := { s.jrn with epochDue := false } } : State).nextEpoch else s.journalFull .epoch
  else if s.upkeepBusy || !s.jrn.settles.isEmpty || s.jrn.inFlight.any fun r => r.kind = .epoch then s
  else s.jrn.scanWait.foldl (fun t c => t.beginNext c) { s with jrn := { s.jrn with scanWait := [] } }
def execReexecutionScan (s : State) : Host.Outcome State Fault Refusal := .next s.scanEnds
/-- Accesses that an owner test accepts are cut: what waits is dropped, what is outstanding is discarded on return; a write that the
controller then answers without error has landed all the same (R415). -/
def PortChan.cut (c : PortChan) (f : Nat → Owner → Bool) : PortChan :=
  { c with queue := c.queue.filter fun r => !f r.requester r.owner
           out := c.out.map fun a => if f a.requester a.owner then { a with discard := true } else a }
/-- The blocks whose locks go with the accesses: of a counter's read that is granted, or of its write (R233). -/
def PortChan.locks (c : PortChan) (write : Bool) (f : Nat → Owner → Bool) : List Nat :=
  (c.queue.filterMap fun r => if f r.requester r.owner && (write || r.holds) then r.block else none) ++
    c.out.filterMap fun a => if f a.requester a.owner then a.block else none
def State.cutAccesses (s : State) (f : Nat → Owner → Bool) : State :=
  { s with
    ports := s.ports.map fun e =>
      let gone := e.2.rd.locks false f ++ e.2.wr.locks true f
      (e.1, { e.2 with rd := e.2.rd.cut f, wr := e.2.wr.cut f, blocks := e.2.blocks.filter fun b => !gone.contains b })
    fab := { s.fab with remotes := s.fab.remotes.filter fun r => !f 255 r.owner } }
def Item.again (it : Item) : Item :=
  { slotIndex := it.slotIndex, slotAddr := it.slotAddr, seq := it.seq, blockAddr := it.slotAddr, slotFlags := it.slotFlags
    reexec := it.reexec + 1 }
/-- The item in progress runs again from its start, after JRN's scan. -/
def State.reexecute (s : State) (c : Nat) : State :=
  match s.item c with
  | none => s
  | some it =>
    let s0 := s.cutAccesses fun _ o => o.channel = some c
    let s1 := (match it.counterOp with
      | some k => (s0.freeBlock k).settleCounter c k
      | none => s0).ruleLost c
    let s2 := ({ s1 with
      pool := { s1.pool with pieces := s1.pool.pieces.filter fun p => !(p.remote.isNone && decide (p.stream.ctx = c))
                             seals := s1.pool.seals.filter fun p => !(p.remote.isNone && decide (p.stream.ctx = c)) } } : State).modItem c
      fun i => i.again
    let s3 := s2.modCtx c fun x => { x with waitOn := none, halting := false, faults := [], fuse := 0 }
    let s4 : State := if s3.jrn.scanWait.contains c then s3 else { s3 with jrn := { s3.jrn with scanWait := s3.jrn.scanWait ++ [c] } }
    if 255 ≤ it.reexec then { s4 with jrn := { s4.jrn with epochDue := true } } else s4

/-! ## Mover islands (R234, R235, R453, R454, R458) -/

def moverLanes (m : Nat) : List Nat := [2 * m, 2 * m + 1]
/-- The request as its requester will present it again. -/
def PortReq.anew (r : PortReq) (cycle : Nat) : PortReq := { r with presented := none, parked := false, since := cycle + 1 }
/-- A channel of a port at which requesters become masked (R234): their entries go from the pending queue and the wires, to be
presented again after the mask, and a grant of theirs in progress ends after its current beat. How many beats that is at the
least the port's last round shows; beyond it the number is a free value (assumption log 82). -/
def PortChan.masked (c : PortChan) (reqs : List Nat) (cycle free : Nat) : PortChan :=
  let c1 := { c with queue := c.queue.map fun r => if reqs.contains r.requester then r.anew cycle else r }
  match c.owner with
  | none => c1
  | some g =>
    if !reqs.contains g.requester ∨ g.lastBeat ≤ cycle then c1
    else
      let k := min g.tags.length (max (cycle + 1 - g.firstBeat) (Config.beatsIssued free))
      let rest := { (g.req.anew cycle) with beats := g.req.beats.drop k, holds := g.req.holds || g.req.block.isSome }
      { c1 with
        out := c1.out.filter fun a => !(g.tags.drop k).contains a.tag, flight := none
        queue := if k < g.tags.length then c1.queue ++ [rest] else c1.queue
        owner := if k = 0 then none else some { g with lastBeat := g.firstBeat + k - 1, tags := g.tags.take k } }
/-- CTL's mask sideband for requesters, at every port where they are not masked already (R234). -/
def State.maskReqs (s : State) (reqs : List Nat) : State :=
  ((List.range 8).foldl (fun t p =>
    let q := t.port p
    let new := reqs.filter fun r => !q.masked.contains r
    t.setPort p { q with
      masked := q.masked ++ new, rd := q.rd.masked new q.cycle s.free, wr := q.wr.masked new q.cycle s.free }) s).nextFree
/-- The mask clears: the requesters present what they have again (R234). -/
def State.unmaskReqs (s : State) (reqs : List Nat) : State :=
  (List.range 8).foldl (fun t p =>
    let q := t.port p
    let fresh (c : PortChan) : PortChan := { c with queue := c.queue.map fun r => if reqs.contains r.requester then r.anew q.cycle else r }
    t.setPort p { q with masked := q.masked.filter fun r => !reqs.contains r, rd := fresh q.rd, wr := fresh q.wr }) s
/-- The lanes hold the segment, or what they have read of it (R150). -/
def Segment.cutOff (g : Segment) (lanes : List Nat) : Bool := (g.onLane || g.state = .kept) && lanes.contains g.lane
/-- The accesses at ports that the lanes made. -/
def State.laneAccesses (s : State) (lanes : List Nat) : List Owner :=
  s.ports.flatMap fun e =>
    ((e.2.rd.queue ++ e.2.wr.queue).filter fun r => lanes.contains r.requester).map (·.owner) ++
      ((e.2.rd.out ++ e.2.wr.out).filter fun a => lanes.contains a.requester && !a.discard).map (·.owner)
/-- The channels with a burst, a counter update or a write on the lanes. -/
def State.onLanes (s : State) (lanes : List Nat) : List Nat :=
  ((s.laneAccesses lanes).filterMap Owner.channel ++ (s.runs.filter fun e => e.2.segs.any fun g => g.cutOff lanes).map (·.1) ++
    s.ctxs.filterMap fun e => match e.2.items with
      | it :: _ => (match it.counterOp with
        | some k => if k.value ≠ 0 ∧ k.issued ∧ lanes.contains k.lane then some e.1 else none
        | none => none)
      | [] => none).eraseDups
/-- The first device address of a segment: of its reads, else of its writes. -/
def Op.firstAddr (o : Op) (lo : Nat) : Nat :=
  match o.reads with
  | r :: _ => r.2.addr lo
  | [] => match o.dest with
    | some (d, w) => d.addr (lo * w)
    | none => 0
def cutFault (s : State) (off a : Nat) (signal : Bool) : FaultRec :=
  { offset := off, status := .busFault, detail := a, cause := 4, port := (s.portOf (localOf a)).getD 255, address := a, signal := signal }
/-- A cut burst in FLOW: under a quoin lock its channel halts, any other is issued again from its first beat. -/
def State.recut (s : State) (c : Nat) (lanes : List Nat) : State :=
  let s1 := match s.run c with
    | some r =>
      let cut : List Segment := r.segs.filter fun g => Segment.cutOff g lanes
      let again (q : OpRun) : OpRun :=
        let w : OpRun := cut.foldl (fun (w : OpRun) (g : Segment) => w.forget g.lo g.hi) q
        { w with segs := q.segs.map fun (g : Segment) => if g.cutOff lanes then { g with state := .ready, wrote := 0 } else g }
      let t := s.modRun c again
      if r.op.locked then (match cut with
        | g :: _ => t.failOp c (cutFault s g.lo (r.op.firstAddr g.lo) false)
        | [] => t)
      else t
    | none => s
  match s1.item c with
  | some it => (match it.counterOp with
    | some k => if c < legacyBase ∧ k.value ≠ 0 ∧ k.issued ∧ lanes.contains k.lane then
        (s1.freeBlock k).counterFailed c (cutFault s1 0 (s1.counterAddr k.group k.counter) k.forSignal) else s1
    | none => s1)
  | none => s1
/-- Writes of the lanes that no segment in progress would make again: of a result block, and of ops that have completed. -/
def State.looseWrites (s : State) (lanes : List Nat) : List (Nat × PortReq) :=
  let loose (o : Owner) : Bool := match o with
    | .result _ _ => true
    | .opWrite c n g => !((s.run c).any fun r => decide (r.serial = n) && r.segs.any fun x => decide (x.lo = g) && x.onLane)
    | _ => false
  s.ports.flatMap fun e =>
    ((e.2.wr.queue.filter fun r => lanes.contains r.requester && loose r.owner).map fun r => (e.1, r)) ++
      (e.2.wr.out.filter fun a => lanes.contains a.requester && !a.discard && loose a.owner).map fun a =>
        (e.1, { owner := a.owner, requester := a.requester, cls := a.cls, beats := [a.beat], presented := none, locked := false,
                block := none, parked := false, posted := true })
/-- The op is a TALLY in progress with partial accumulators on the lanes (R214). -/
def OpRun.talliesOn (r : OpRun) (lanes : List Nat) : Bool :=
  (match r.op with
    | .tally .. => true
    | _ => false) && r.phase = .data && r.lanes.any fun l => lanes.contains l
/-- A TALLY that has used the lanes loses its partial accumulators: the op alone begins again (R453, step 3). -/
def State.restartTallies (s : State) (lanes : List Nat) : State :=
  s.runs.foldl (fun t e => if e.2.talliesOn lanes then
      (t.cutAccesses fun _ o => match o with
        | .opRead c n _ => decide (c = e.1) && decide (n = e.2.serial)
        | _ => false).modRun e.1 fun r => { (r.rewind 0) with lanes := [] }
    else t) s
/-- Lanes are cut: their accesses go; in KEEP and TWIN the items that they worked for re-execute, those of a TALLY's partials among them
(R70, R214), in FLOW a burst is issued again on another lane and a TALLY begins again (R235). -/
def State.cutLanes (s : State) (lanes : List Nat) : State :=
  let hit := (s.onLanes lanes ++ (s.runs.filter fun e => e.2.talliesOn lanes && s.journaled && decide (e.1 < legacyBase)).map (·.1)).eraseDups
  let loose := s.looseWrites lanes
  let s1 := s.cutAccesses fun r _ => lanes.contains r
  let s2 := (hit.foldl (fun t c => if t.journaled && decide (c < legacyBase) then t.reexecute c else t.recut c lanes) s1).restartTallies lanes
  let other (l : Nat) : Bool := s2.lane l = 0 && s2.moverOpen (l / 2) && !lanes.contains l
  (loose.filter fun e => !(s.journaled && e.2.owner.channel.any fun c => decide (c < legacyBase))).foldl (fun t e =>
    t.present e.1 true { e.2 with requester := (((List.range 26).find? other).map laneReq).getD e.2.requester }) s2
def State.activeLanes (s : State) : Nat := ((List.range 26).filter fun l => s.lane l = 0).length
/-- A lane returns: active while fewer than 24 are, else a spare (R454). -/
def State.placeLane (s : State) (l : Nat) : State := s.setLane l (if s.activeLanes < 24 then 0 else 1)
/-- A lane retires; the lowest spare takes the place of an active one (R454). -/
def State.retireLane (s : State) (l : Nat) : State :=
  let was := s.lane l
  let s1 := s.setLane l 2
  if was = 0 then
    match (List.range 26).find? fun n => s1.lane n = 1 with
    | some n => s1.setLane n 0
    | none => s1
  else s1
/-- CTL masks the island, sets RETIRED, and spares take over (R453, steps 4 and 5). The lanes leave together. -/
def State.retireMover (s : State) (m : Nat) : State :=
  let i := moverIsland m
  let ls := moverLanes m
  let s1 := (s.maskReqs ls).setIsland i { s.island i with retired := true, heldOut := false }
  let spared := ls.foldl (fun t l => if t.lane l = 1 then t.setLane l 2 else t) s1
  ls.foldl (fun t l => if t.lane l = 2 then t else t.retireLane l) spared
/-- The lanes hold no burst, and every access they made is answered, the posted writes of completed ops among them (R235, R353). -/
def State.lanesIdle (s : State) (lanes : List Nat) : Bool :=
  (lanes.all fun l => decide (s.laneLoad l = 0) && !s.laneLocked l) && (s.laneAccesses lanes).isEmpty
/-- SCHED_LANE_DEMAND falls when an active lane exists (R354). -/
def State.settleDemand (s : State) : State :=
  if 0 < s.activeLanes then { s with sched := { s.sched with laneDemand := false } } else s
/-- A mover island that returns: out of reset and unmasked, its lanes placed. -/
def State.returnMover (s : State) (m : Nat) : State :=
  let i := moverIsland m
  let s1 := (s.unmaskReqs (moverLanes m)).setIsland i { s.island i with retired := false, heldOut := false }
  ((moverLanes m).foldl State.placeLane s1).settleDemand

/-! ## HALT (R26, R54) -/

/-- The device enters HALT: its links go down, and requests held for replay's end are lost with them. -/
def State.enterHalt (s : State) (cause : Nat) : State :=
  let s1 : State := { s with ctl := { s.ctl with recoverStage := .none }, fab := { s.fab with held := [] } }
  (List.range 16).foldl State.dropLink (s1.enterMode .halt cause)

/-! ## Memory port islands (R264, R349, R352) -/

/-- The port serves again: stalled channels proceed. -/
def State.resumePort (s : State) (p : Nat) : State := if s.portDown p then s else s.domainReturn p
/-- The port's island is reset: accesses due, and the requests that stood in its bays, count as error responses, every tag is free, what
had not reached the port is presented later; the requester counters start at 0 (R236), a quota window begins (R224), QACK falls (R410), and the copies of the type case read 80h until CTL writes
the last committed table back (R227). -/
def State.resetPort (s : State) (p : Nat) : State :=
  let q := s.port p
  let k := s.island (portIsland p)
  let made (r : PortReq) : Bool := (k.clockPresent && !k.gated) || r.hung || r.presented.isSome
  let fresh (c : PortChan) : PortChan :=
    { c with queue := (c.queue.filter fun r => !made r).map (·.anew q.cycle), out := [], retired := [], slot := 0, swapPending := false, leadUntil := 0, owner := none
             flight := none, cutAt := 0 }
  let s1 := s.setPort p { q with
    rd := fresh q.rd, wr := fresh q.wr, qack := false, grants := [], waits := [], longest := [], quota0 := 0, quota1 := 0
    limit0 := s.obj 0x4020 0, limit1 := s.obj 0x4021 0, caseActive := [], caseEdit := []
    caseSaved := if q.casePending then q.caseEdit else q.caseActive }
  let s2 := (q.rd.out.filter fun a => !a.discard).foldl (fun t a => t.busError p false a 1) s1
  let s3 := (q.wr.out.filter fun a => !a.discard).foldl (fun t a => t.busError p true a 2) s2
  let s4 := (q.rd.queue.filter made).foldl (fun t r => t.notDone p false r) s3
  ((q.wr.queue.filter made).foldl (fun t r => t.notDone p true r) s4).writeSettles.domainStall p

/-! ## Stash ports (R363 to R366, R425 to R427) -/

/-- The beats that a tile's bytes take at memory ports. -/
def tileBeats (t : PortReq) : List Beat :=
  t.beats.flatMap fun b =>
    ((b.data.map fun d => beatOf d.1).eraseDups).map fun a =>
      let d := b.data.filter fun x => beatOf x.1 = a
      { b with addr := a, len := d.length, data := d, attempts := 0, first := b.first + ((d.headD (b.addr, 0)).1 - b.addr)
               offset := b.offset + ((d.headD (b.addr, 0)).1 - b.addr) }
/-- The lane that a burst which falls back is handed to: as SCHED picks one, else any that takes work (assumption log 83). -/
def State.tileLane (s : State) : Option Nat :=
  (match s.pickLane false [] with
    | some l => some l
    | none => (List.range 26).find? fun l => s.lane l = 0 && s.moverOpen (l / 2)).map laneReq
/-- A tile is written to its home addresses by a lane. -/
def State.writeTile (s : State) (lane : Nat) (t : PortReq) : State :=
  (tileBeats t).foldl (fun u b => match u.portOf b.addr with
    | some p => u.present p true { t with requester := lane, beats := [b], posted := true }
    | none => u) s
/-- The first tile and every later one of its burst fall back (R366); while no lane takes work Sn holds them. -/
def State.fallBack (s : State) (n : Nat) : State :=
  let k := s.stashPort n
  match k.tiles, s.tileLane with
  | t :: _, some l =>
    let mine := k.tiles.filter fun x => x.owner = t.owner
    mine.foldl (fun u x => u.writeTile l x) (s.setStash n { k with
      tiles := k.tiles.filter fun x => x.owner ≠ t.owner, refused := false, fallbacks := satAdd u32Max k.fallbacks 1 })
  | _, _ => s
/-- Every tile falls back, one burst at a time, and the wake line falls (R352, R364). -/
def State.fallAll (s : State) (n : Nat) : Nat → State
  | 0 => s
  | k + 1 => if (s.stashPort n).tiles.isEmpty then s else State.fallAll (s.fallBack n) n k
def State.resetStash (s : State) (n : Nat) : State :=
  let t := s.fallAll n (s.stashPort n).tiles.length
  t.setStash n { t.stashPort n with wake := false, leadPassed := false }

/-! ## Resets of one island (R337, R349, R352, R456) -/

/-- The tests under way on some islands are abandoned (R456). -/
def State.abandonTests (s : State) (f : Nat → Bool) : State :=
  (List.range 47).foldl (fun t i =>
    if f i ∧ (t.island i).testStatus = 1 then t.setIsland i { t.island i with testStatus := 5 } else t) s
/-- SCHED reset alone, in HALT, CONFIG or SURVEY: the cache is empty and nothing runs (assumption log 26). -/
def State.resetCentral (s : State) (i : Nat) : State :=
  if i = schedIsland then
    { s with ctxs := s.ctxs.map fun e => (e.1, { e.2 with cached := false, header := .none })
             sched := { s.sched with dbOutstanding := [], dbOut := [], laneDemand := false } }
  else if i = poolIsland then
    let t := s.cutAccesses fun _ o => o = .pool
    { t with pool := { t.pool with pieces := [], seals := [], refusedBy := [], jobs := [], busy := false } }
  else s
/-- The requesters an island holds (R236). -/
def islandReqs (i : Nat) : List Nat :=
  if i = schedIsland then [schedReq]
  else if 2 ≤ i ∧ i < 15 then moverLanes (i - 2)
  else if i = poolIsland then [poolReq]
  else if i = jrnIsland then [jrnReq]
  else if 26 ≤ i ∧ i < 42 then [linkReq (i - 26)]
  else if 42 ≤ i ∧ i < 46 then [stashReq (i - 42)]
  else []
/-- What a link serves for other nodes is lost with its island: their originators ask again (R326). -/
def State.cutInbound (s : State) (l : Nat) : State :=
  let mine := s.laneAccesses [linkReq l]
  let s1 := s.cutAccesses fun r _ => decide (r = linkReq l)
  { s1 with fab := { s1.fab with serving := s1.fab.serving.filter fun f => !(mine.any fun o => o = .inboundRead f.src f.tag || o = .inboundWrite f.src f.tag) } }
/-- The link goes down with its island, and TXD reads 0 (R314, R410). -/
def State.linkDark (s : State) (l : Nat) : State :=
  let t := s.dropLink l
  t.setLink l { t.link l with txBlock := [] }
/-- What the reset of an island does to its work; its requesters are masked (R234). -/
def State.cutIsland (s0 : State) (i : Nat) : State :=
  let s := s0.maskReqs (islandReqs i)
  if 2 ≤ i ∧ i < 15 then s.cutLanes (moverLanes (i - 2))
  else if 18 ≤ i ∧ i < 26 then s.resetPort (i - 18)
  else if 26 ≤ i ∧ i < 42 then (s.linkDark (i - 26)).cutInbound (i - 26)
  else if 42 ≤ i ∧ i < 46 then s.resetStash (i - 42)
  else if i = tstIsland then s.abandonTests fun _ => true
  else s.resetCentral i
/-- The island is put in reset. -/
def State.assertReset (s : State) (i : Nat) : State :=
  if (s.island i).inReset then s
  else ((s.setIsland i { s.island i with inReset := true }).abandonTests fun k => decide (k = i)).cutIsland i
/-- The island may leave reset (R351, R353): its clock runs, its rail is good, nothing holds it. -/
def Island.mayRelease (i : Island) : Bool := i.clockPresent && i.pwrok && !i.rstLow && !i.pdreq && !i.heldOut
/-- Tiles that a reset of Sn left without a lane fall back once one takes work (R352, R366). -/
def State.fallHeld (s : State) : State :=
  (List.range 4).foldl (fun t n => if (t.stashPort n).wake then t else t.fallAll n (t.stashPort n).tiles.length) s
/-- What an island does when it leaves reset. -/
def State.islandBack (s : State) (i : Nat) : State :=
  if 2 ≤ i ∧ i < 15 then
    if (s.island i).retired then s
    else ((moverLanes (i - 2)).foldl (fun t l => if t.lane l = 3 then t.placeLane l else t) (s.unmaskReqs (moverLanes (i - 2)))).settleDemand.fallHeld
  else if 18 ≤ i ∧ i < 26 then
    let q := s.port (i - 18)
    (s.setPort (i - 18) { q with caseActive := q.caseSaved }).resumePort (i - 18)
  else if 26 ≤ i ∧ i < 42 then (s.unmaskReqs (islandReqs i)).awaitLock (i - 26)
  else s.unmaskReqs (islandReqs i)
def State.releaseReset (s : State) (i : Nat) : State :=
  let k := s.island i
  if k.inReset && k.mayRelease then (s.setIsland i { k with inReset := false, gated := false, pdack := false }).islandBack i else s

end Sys2Proof.Machine
end

