-- ==== Sys2Proof/Machine/Recover.lean ====
section
/-! DEFINITION. The device's reset (R26, R69, R432), the journal's validity (R59, R291), and RECOVER (R50, R292 to R294). -/
namespace Sys2Proof.Machine

/-! ## The anchor and the journal's validity (R59, R272, R291) -/

def State.anchorNow (s : State) : List Byte := s.bytesAt (anchorAddr s) 64
def anchorOk (b : List Byte) : Bool := decide (fieldAt b 0 4 = 0x4A524E31) && decide (fieldAt b 0x3C 4 = crc32c (b.take 0x3C))
def anchorLive (b : List Byte) : Bool := anchorOk b && decide (fieldAt b 0x14 1 = 1 ∨ fieldAt b 0x14 1 = 2)
/-- The scan from an anchor's TAIL over the ring it names. -/
def State.anchorScan (s : State) (b : List Byte) : List Record × Nat :=
  let n := fieldAt b 0x10 4
  if n = 0 then ([], fieldAt b 0x18 8)
  else scanFrom (fun p => s.bytesAt (fieldAt b 8 8 + p % n * 64) 64) n (fieldAt b 0x18 8) (fieldAt b 4 4) 0
def lastOpen (l : List Record) : Bool :=
  match (l.filter fun r => r.kind = .epoch).getLast? with
  | some r => decide (r.event = 1)
  | none => false
def State.journalValid (s : State) : Bool :=
  let b := s.anchorNow
  anchorLive b && lastOpen (s.anchorScan b).1
/-- JRN's registers as an anchor gives them. -/
def State.journalOf (s : State) (b : List Byte) : Journal :=
  let r := s.anchorScan b
  { pushed := s.jrn.pushed, head := r.2, tail := fieldAt b 0x18 8, epoch := fieldAt b 4 4, anchorState := fieldAt b 0x14 1, anchorMode := fieldAt b 0x15 1
    anchorTarget := fieldAt b 0x16 1, log := r.1, tailWritten := fieldAt b 0x18 8, reclaim := fieldAt b 0x18 8 }

/-! ## DEVICE_RESET (R26, R69, R432) -/

/-- What POOL finds again in memory after a reset into RECOVER: its galleys are to be rebuilt (R191). A seal that was under way has not
taken effect, and RECOVER frees the cells drawn for it; the headers of free cells that were still to be written stay to be (R156). The
counters of 7013h, which R194 clears at CREATE only, go on (DESIGN CHOICE, assumption log 99). -/
def State.poolAfterReset (s : State) : Pool :=
  let q := s.pool
  { q with pieces := [], seals := [], refusedBy := [], busy := false
           jobs := q.jobs.filter fun j => match j with
             | .write a _ => q.freeList.any fun k => s.cellAddr k = a
             | _ => false
           galleys := q.galleys.map fun e => (e.1,
             { e.2 with heads := [], state := if e.2.state = .active then .rebuilding else e.2.state }) }
/-- The levels of the surroundings' inputs stay as they stand. -/
def Port.inputs (q : Port) : Port := { hold := q.hold, throttle := q.throttle, qreq := q.qreq }
def Island.inputs (i : Nat) (k : Island) : Island := { islandReset i with rstLow := k.rstLow, pdreq := k.pdreq, pwrok := k.pwrok }
/-- The device is reset: memory, the custodian keys and what waits outside it stay. `word` says that an uncorrectable
word of the context store caused it (R463). -/
def State.deviceReset (s : State) (straps : Straps) (word : Bool) : State :=
  let base : State := { State.reset with
    pending := s.pending, free := s.free, straps := straps, mem := s.mem, tapReset := s.tapReset
    prot := { keyA := s.prot.keyA, keyB := s.prot.keyB }
    scrub := if word then { uncorrected := s.scrub.uncorrected, address := s.scrub.address } else {}
    ports := Tab.putAll (fun _ => {}) [] (s.ports.map fun e => (e.1, e.2.inputs))
    islands := Tab.putAll islandReset [] (s.islands.map fun e => (e.1, e.2.inputs e.1))
    jrn := { pushed := s.jrn.pushed }
    fab := { links := Tab.putAll (fun _ => {}) [] (s.fab.links.map fun e => (e.1, ({ lock := e.2.lock } : Link))) } }
  let b := base.anchorNow
  if anchorLive b then
    { base with ctl := { base.ctl with mode := .recover }, pool := s.poolAfterReset, jrn := base.journalOf b }
  else if anchorOk b then { base with jrn := base.journalOf b }
  else base
def execDeviceReset (straps : Straps) (s : State) : Host.Outcome State Fault Refusal := .next (s.deviceReset straps false)

/-! ## RECOVER's first part: images and marks (R292, R293) -/

/-- RECOVER gives up: HALT, with the journal as it stands. -/
def State.recoverFails (s : State) : State := s.enterHalt 6
/-- The contexts whose entries in a context image hold a byte. -/
def State.imagedCtxs (s : State) (base : Nat) : List Nat :=
  ((s.mem.filter fun e => decide (base ≤ e.1) && decide (e.1 < base + 2 ^ 25)).map fun e => (e.1 - base) / 128).eraseDups
def Record.isAccept (r : Record) (c : Nat) : Bool := decide (r.kind = .accept) && decide (r.ctx = c)
/-- The marks and indexes of an open context (R293, steps 1, 2, 4 and 5), and what its acceptance word says of the last
publication, which later writes carry on (R40). -/
def State.markCtx (s : State) (x : Ctx) (c : Nat) (log : List Record) : Ctx :=
  let a := x.f.acceptAddr
  let next : BitVec 32 := match (log.filter fun r => r.isAccept c).getLast? with
    | some r => BitVec.ofNat 32 (r.slotIndex + 1)
    | none => x.consumer
  let seen := max x.accepted (s.numAt a 8) ≠ 0
  { x with acceptEpoch := if seen then s.numAt (a + 0x10) 4 else 0, acceptMode := if seen then s.numAt (a + 0x16) 1 else 0
           accepted := max x.accepted (s.numAt a 8), completed := max x.completed (s.numAt (a + 8) 8)
           refused := max x.refused (s.numAt (a + 0x14) 2), consumer := next, producer := next }
/-- The contexts as the image gives them. -/
def State.restoreCtxs (s : State) (base : Nat) : State :=
  (s.imagedCtxs base).foldl (fun t c =>
    let x := ctxOfImage (t.bytesAt (base + c * 128) 128)
    t.setCtx c (if x.state = .closed then { f := x.f } else x)) s
/-- The marks of the open contexts. -/
def State.markCtxs (s : State) : State :=
  { s with ctxs := s.ctxs.map fun e => (e.1, if e.2.state = .closed then e.2 else s.markCtx e.2 e.1 s.jrn.log) }
/-- RECOVER or a change of mode stands at a stage. -/
def State.stage' (s : State) (r : RecoverStage) : State := { s with ctl := { s.ctl with recoverStage := r } }
/-- What the images restore, at its default; the rest a RECOVER that is written from HALT finds as it stands: staged values (R385),
refusals, a lock and the changes of protection (R403, R407) among it. -/
def State.cleared (s : State) (b : List Byte) : State :=
  { s with ctxs := [], sched := { s.sched with slots := [], rules := [], posted := [] }, jrn := s.journalOf b
           dict := { s.dict with values := [], nodeSets := [] }
           prot := { s.prot with proposed := [], active := [] }
           twin := { s.twin with point := 0, held := false, state := 0, answer := none, unreachableRaised := false } }
/-- Some region that RECOVER is to read next waits for its ports (R23, R419; assumption log 13). -/
def State.readsWait (s : State) (l : List (Nat × Nat)) : Bool := s.unitWaits jrnIsland || l.any fun e => s.readWaits e.1 e.2
/-- The acceptance words of the open contexts, and the shadow that the device keeps. -/
def State.wordReads (s : State) : List (Nat × Nat) :=
  (s.ctxs.filterMap fun e => if e.2.state = .closed then none else some (e.2.f.acceptAddr, 24)) ++
    (if s.obj 0x9032 0 = 0 then [] else [(shadowBase s - 0x40, 0x40 + s.obj 0x9032 0 * 64)])
/-- From the anchor to the marks, in the order of R292; in TWIN the handshake follows, else the replay. -/
def State.recoverStart (s : State) : State :=
  let b := s.anchorNow
  let base := fieldAt b 0x20 8
  if s.readsWait [(anchorAddr s, 64)] then s
  else if !s.regionOk (anchorAddr s) 64 || !anchorLive b then s.recoverFails
  else if s.readsWait [(base, 2 ^ 20), (fieldAt b 0x28 8, 2 ^ 25), (fieldAt b 8 8, fieldAt b 0x10 4 * 64)] then s
  else match readImage s base 131072 0 with
    | none => s.recoverFails
    | some entries =>
      let s1 := (entries.foldl State.restoreEntry (s.cleared b)).restoreCtxs (fieldAt b 0x28 8)
      if !lastOpen s1.jrn.log then s1.recoverFails
      else if s.readsWait s1.wordReads then s
      else
        let s2 := s1.markCtxs.findShadow
        if fieldAt b 0x15 1 = 4 then (s2.stage' .handshake).sendHello
        else s2.stage' .shipping

/-! ## The twin's answer (R292, R294) -/

/-- ACCEPT records from a position on are voided where they stand. -/
def State.voidFrom (s : State) (e : Nat) : State :=
  let log := s.jrn.log.map fun r => if r.kind = .accept ∧ e ≤ r.pos then { r with void := true } else r
  let s1 : State := { s with jrn := { s.jrn with log := log } }
  log.foldl (fun t r => if r.kind = .accept ∧ e ≤ r.pos then t.upkeepWrite (recordAddr t r.pos) r.bytes else t) s1
def State.recoverTwin (s : State) (valid : Bool) (point : Nat) : State :=
  let l := s.jrn.head
  let e := if valid then min l (point + 1) else l
  let s1 := (s.raiseIf (!valid) .twinShadowLost).voidFrom e
  ({ s1 with twin := { s1.twin with
    point := if valid then min point (l - 1) else 0, held := valid, unreachableRaised := false } } : State).stage' .voiding
/-- The VOID records stand: the records behind the twin point are shipped (R290, R292). -/
def State.recoverShip (s : State) : State :=
  (s.stage' .shipping).ship (if s.twin.held then s.twin.point + 1 else s.jrn.tail) s.jrn.head true
/-- The twin holds the log up to a position (R292). -/
def State.twinHolds (s : State) (pos : Nat) : Bool := s.twin.held && decide (pos ≤ s.twin.point)

/-! ## Replay (R282, R292) -/

def Record.liveAccept (r : Record) : Bool := decide (r.kind = .accept) && !r.void
/-- The marks rise to the records of the scan (R293, step 3). -/
def State.raiseMarks (s : State) : State :=
  s.jrn.log.foldl (fun t r =>
    if (t.ctx r.ctx).state = .closed then t
    else if r.liveAccept then t.modCtx r.ctx fun x => { x with accepted := max x.accepted r.seq }
    else if r.kind = .complete then t.modCtx r.ctx fun x => { x with completed := max x.completed r.seq }
    else t) s
/-- The last COUNTER record of each counter that is not a copy: its addition is made if it is missing. -/
def State.replayCounters (s : State) : State :=
  s.jrn.log.foldl (fun t r =>
    let last := !(t.jrn.log.any fun q => decide (q.kind = .counter) && !q.carried && decide (q.group = r.group) && decide (q.counter = r.counter) &&
      decide (r.pos < q.pos))
    let a := t.counterAddr r.group r.counter
    if r.kind = .counter ∧ !r.carried ∧ last ∧ t.numAt a 8 = r.old then t.upkeepWrite a (leBytes 8 ((r.old + r.value) % 2 ^ 64)) else t) s
/-- The counters, and the slots of completed and of live items, that RECOVER reads. -/
def State.counterReads (s : State) : List (Nat × Nat) :=
  (s.jrn.log.filter fun r => r.kind = .counter).map fun r => (s.counterAddr r.group r.counter, 8)
def State.statusReads (s : State) : List (Nat × Nat) :=
  (s.jrn.log.filter fun r => r.kind = .complete).map fun r => (slotAddr (s.ctx r.ctx).f r.slotIndex, 0x20)
def State.slotReads (s : State) : List (Nat × Nat) :=
  (s.jrn.log.filter fun r => r.kind = .accept).map fun r => (r.slotAddr, 4)
def State.recoverMode (s : State) : Mode := modeOfCode s.jrn.anchorMode
/-- The marks and the counters. -/
def State.replay (s : State) : State := s.raiseMarks.replayCounters.stage' .replaying
/-- Then the OPEN record, once it has a position (R279); with the last epoch used up none opens (R281). -/
def State.recoverOpen (s : State) : State :=
  let s2 := s.stage' .opening
  if s.jrn.epoch = 0xFFFFFFFF then { s2 with jrn := { s2.jrn with lastEpoch := true } }
  else if !admits s .epoch then s.journalFull .epoch
  else
    let s3 := s2.openRecord s.recoverMode 1
    if s.recoverMode = .twin then s3.ship s.jrn.head (s.jrn.head + 1) true else s3

/-! ## The end of RECOVER (R50, R292) -/

/-- R50: the status of a completed item, where its slot still carries it. -/
def State.restoreStatus (s : State) (r : Record) : State :=
  let a := slotAddr (s.ctx r.ctx).f r.slotIndex
  if (s.ctx r.ctx).state = .closed ∨ s.byteAt a = 0 ∨ s.numAt (a + 8) 8 ≠ r.seq then s
  else (s.upkeepWrite (a + 0x10) r.statusArea).upkeepWrite a [0]
def insertBySeq (it : Item) : List Item → List Item
  | [] => [it]
  | j :: r => if it.seq < j.seq then it :: j :: r else if it.seq = j.seq then j :: r else j :: insertBySeq it r
/-- Every live item that is not completed waits in its stream's order for re-execution; a context beyond the cache's 4,096
(R24) waits for its load. -/
def State.queueLive (s : State) : State :=
  s.jrn.log.foldl (fun t r =>
    let done := t.jrn.log.any fun q => decide (q.kind = .complete) && decide (q.ctx = r.ctx) && decide (q.seq = r.seq)
    if r.liveAccept && !done && (t.ctx r.ctx).state ≠ .closed then
      t.modCtx r.ctx fun x => { x with
        cached := x.cached || decide (t.cachedCount < 4096)
        items := insertBySeq { slotIndex := r.slotIndex, slotAddr := r.slotAddr, seq := r.seq, blockAddr := r.slotAddr
                               slotFlags := t.numAt (r.slotAddr + 2) 2 } x.items }
    else t) s
/-- The contexts met in the scan. -/
def State.scanned (s : State) : List Nat :=
  ((s.jrn.log.filter fun r => r.kind = .accept ∨ r.kind = .complete ∨ r.kind = .counter).map (·.ctx)).eraseDups.filter
    fun c => (s.ctx c).state ≠ .closed
/-- The new epoch's anchor, its STATE and DRAIN_TARGET as before. -/
def State.recoverAnchor (s : State) : State := if s.jrn.lastEpoch then s else s.writeImages.writeAnchor
/-- The release notices of a completed item (R174). -/
def State.releaseNotices (s : State) (r : Record) : State :=
  (s.jrn.pushed.filter fun e => e.pos = r.pos ∧ e.ctx = r.ctx ∧ e.seq = r.seq).foldl (fun t e =>
    e.refs.eraseDups.foldl (fun u ref => u.notice e.ctx 1 ref e.seq 0) t) s
/-- The cells drawn for seals that the reset cut are free again (R156, R191). -/
def State.freeCut (s : State) : State :=
  s.pool.galleys.foldl (fun t e => match e.2.sealing with
    | some x => (t.setGalley e.1 { t.galley e.1 with sealing := none }).freeAll x.fresh
    | none => t) s
/-- Completed items: R50, their releases here and on other nodes, the acceptance words of the contexts met in the scan (R40, R292). -/
def State.recoverRestore (s0 : State) : State :=
  let s := s0.freeCut
  let m := s.recoverMode
  let s1 := (s.jrn.log.filter fun r => r.kind = .complete).foldl (fun t r =>
    (((t.restoreStatus r).releaseNotices r).releaseHeld r.ctx r.seq).releaseMarks (t.stream r.ctx) r.seq) s
  (s1.scanned.foldl (fun t c =>
    let t1 := t.modCtx c fun x => { x with acceptEpoch := t.jrn.epoch, acceptMode := m.code }
    t1.upkeepWrite (t1.ctx c).f.acceptAddr (acceptWordBytes t1 c)) s1).stage' .restoring
/-- POOL rebuilds the galleys that are REBUILDING (R191, R292). -/
def State.recoverGalleys (s : State) : State :=
  ((s.pool.galleys.foldl (fun t e => if e.2.state = .rebuilding then t.rebuild e.1 else t) s).stage' .rebuilding).poolRun
/-- The last steps: the mode, the items that run again. -/
def State.recoverEnds (s : State) : State :=
  let m := s.recoverMode
  let drains := s.jrn.anchorState = 2 ∨ s.jrn.lastEpoch = true
  let target := if s.jrn.lastEpoch then 1 else s.jrn.anchorTarget
  let s3 : State := { s with ctl := { s.ctl with
    recoverStage := .none, drainFrom := m, drainTarget := if drains then target else s.ctl.drainTarget }
                             twin := { s.twin with state := if m = .twin then 1 else 0 } }
  let s4 := (if drains then s3.enterMode .drain 3 else s3.enterMode m 3)
  let s7 := s4.queueLive
  (s4.scanned.foldl (fun t c => if (t.ctx c).items.isEmpty then t else t.beginNext c) s7).serveHeld
/-- RECOVER: each step once the one before it is complete, and what it reads can be read; the twin is waited for without limit
(R294). -/
def State.recover (s : State) : State :=
  if s.ctl.mode ≠ .recover ∨ s.unitWaits jrnIsland then s
  else match s.ctl.recoverStage with
    | .handshake =>
      (match s.twin.answer with
       | some (true, valid, point) => s.recoverTwin valid point
       | _ => s.sendHello)
    | .shipping => if (s.jrn.anchorMode ≠ 4 ∨ s.twinHolds (s.jrn.head - 1)) ∧ !s.readsWait s.counterReads then s.replay else s
    | .voiding => if s.upkeepBusy then s else s.recoverShip
    | .replaying => if s.upkeepBusy then s else s.recoverOpen
    | .opening =>
      if s.jrn.inFlight.isEmpty && (decide (s.jrn.anchorMode ≠ 4) || s.twinHolds (s.jrn.head - 1)) then s.recoverAnchor.stage' .anchoring
      else s
    | .anchoring => if s.upkeepBusy || s.readsWait s.statusReads then s else s.recoverRestore
    | .restoring => if s.upkeepBusy then s else s.recoverGalleys
    | .rebuilding =>
      if s.pool.galleys.any fun e => e.2.state = .rebuilding then s.poolRun else if s.readsWait s.slotReads then s else s.recoverEnds
    | _ => s.recoverStart
def execRecover (s : State) : Host.Outcome State Fault Refusal := .next s.recover

end Sys2Proof.Machine
end

