-- ==== Sys2Proof/Machine/Modes.lean ====
section
/-! DEFINITION. The modes: what a write of MODE does (R56 to R59, R65, R66, R384), DRAIN (R60 to R62, R451), SURVEY (R461, R462),
DRAIN_TARGET, FORMAT and TAKEOVER (R295, R298). -/
namespace Sys2Proof.Machine

/-! ## HALT, CONFIG, RECOVER (R57, R65) -/

/-- Tests under way are abandoned with the survey (R462). -/
def State.leaveSurvey (s : State) : State :=
  ({ s with ctl := { s.ctl with surveyResult := 4 } } : State).abandonTests fun _ => true
def State.writeHalt (s : State) : Reply :=
  match s.ctl.mode with
  | .config => .ok (s.enterHalt 0)
  | .recover => .ok (s.enterHalt 0)
  | .survey => .ok (s.leaveSurvey.enterHalt 5)
  | _ => .refuse abortState
def State.writeConfig (s : State) : Reply :=
  if s.ctl.mode = .halt then .ok (s.enterMode .config 0).awaitLocks else .refuse abortState
def State.writeRecover (s : State) : Reply :=
  if s.ctl.mode = .halt ∧ s.journalValid then .ok ((s.stage' .none).enterMode .recover 0).awaitLocks else .refuse abortState

/-! ## Entry to KEEP and TWIN (R58, R59, R280, R281, R284) -/

/-- What keeps the device out of KEEP and TWIN, with the values that are active. -/
def State.entryRefusal (s : State) : Option Nat :=
  let now : State := { s with dict := { s.dict with staged := [] } }
  if !now.regionsOk then some abortRange
  else if ringRecords s = 0 ∨ ringRecords s / 4 < s.obj 0x9005 0 ∨ s.jrn.epoch = u32Max then some abortState
  else none
/-- The EPOCH OPEN record goes out once it has a position, in TWIN also to the twin. -/
def State.beginOpen (s : State) (m : Mode) (cause : Nat) : State :=
  let s1 := (s.openRecord m cause).stage' .opening
  if !admits s .epoch then s.journalFull .epoch
  else if m = .twin then
    ({ s1 with twin := { s1.twin with held := false, unreachableRaised := false } } : State).ship s.jrn.head (s.jrn.head + 1) false
  else s1
/-- The OPEN record is in the ring, and in TWIN at the twin. -/
def State.openStands (s : State) (m : Mode) : Bool := s.jrn.inFlight.isEmpty && (m ≠ .twin || s.twinHolds (s.jrn.head - 1))
/-- The new epoch's images and anchor are written. -/
def State.beginAnchor (s : State) (m : Mode) : State := (s.openAnchor m 1 0).stage' .anchoring
/-- They stand: the mode is entered. -/
def State.endOpen (s : State) (m : Mode) (cause : Nat) : State :=
  let s1 := s.stage' .none
  ({ s1 with twin := { s1.twin with state := if m = .twin then 1 else 0 } } : State).enterMode m cause
/-- The handshake of R284 begins. -/
def State.beginHello (s : State) : State := (s.stage' .handshake).sendHello
/-- The twin has answered ready. -/
def State.twinIsReady (s : State) : Bool :=
  match s.twin.answer with
  | some (ready, _, _) => ready
  | none => false

/-! ## Writes of MODE from CONFIG (R57, R65, R384, R462) -/

/-- The implicit commit. -/
def State.implicitCommit (s : State) : Option State :=
  if !s.stagedAny then some s else if s.regionsOk then some s.commitNow else none
/-- A transition out of CONFIG: the table and R65, the commit, then the transition's own checks. -/
def State.fromConfig (s : State) (enter : State → Reply) : Reply :=
  if s.ctl.mode ≠ .config ∨ s.journalValid then .refuse abortState
  else match s.implicitCommit with
    | none => .refuse abortRange
    | some t => enter t
def State.writeFlow (s : State) : Reply :=
  s.fromConfig fun t => if t.ctl.barred ≠ 0 then .refuseIn t abortState else .ok (t.enterMode .flow 0)
/-- Entry to KEEP or TWIN, held while its handshake, its record and its anchor are on their way. -/
def State.writeJournaled (s : State) (m : Mode) : Reply :=
  if s.ctl.mode ≠ .config then .refuse abortState
  else match s.ctl.recoverStage with
  | .handshake => if s.twinIsReady then .hold (s.beginOpen m 0) else .hold s.sendHello
  | .opening => if s.openStands m then .hold (s.beginAnchor m) else .hold s
  | .anchoring => if s.upkeepBusy then .hold s else .ok (s.endOpen m 0)
  | _ => s.fromConfig fun t =>
    if t.ctl.barred ≠ 0 then .refuseIn t abortState
    else match t.entryRefusal with
      | some c => .refuseIn t c
      | none => .hold (if m = .twin then t.beginHello else t.beginOpen m 0)

/-! ## SURVEY (R66, R461, R462) -/

/-- The survey begins: what waits at the doorbells is answered (R44), every context is closed, every island under test. -/
def State.beginSurvey (s : State) (cause : Nat) : State :=
  let s0 := s.ctxs.foldl (fun t e => t.judgeEarly e.1) s
  let s1 := (List.range 47).foldl (fun t i => t.setIsland i { t.island i with testStatus := 1 })
    ({ s0 with ctxs := [], ctl := { s0.ctl with surveyResult := 1 } } : State)
  (s1.enterMode .survey cause).awaitLocks
def State.writeSurvey (s : State) : Reply :=
  if s.ctl.mode = .halt then (if s.journalValid then .refuse abortState else .ok (s.beginSurvey 0))
  else s.fromConfig fun t => .ok (t.beginSurvey 0)
/-- A link under test goes down (R314, R461), and retrains by R313 as its blocks come; the survey's one command takes down every link
before it ends (assumption log 60). -/
def State.surveyLink (s : State) (l : Nat) : State := (s.dropLink l).awaitLock l
/-- An island that fails stays out of service (R462). -/
def State.failIsland (s : State) (i : Nat) : State :=
  if 2 ≤ i ∧ i < 15 then s.retireMover (i - 2)
  else if 18 ≤ i then
    let t := s.assertReset i
    t.setIsland i { t.island i with heldOut := true }
  else s
def centralIslands : List Nat := [ctlIsland, schedIsland, poolIsland, ctxIsland, jrnIsland]
def State.surveyEnd (s : State) (failed : Nat) : State :=
  if s.ctl.mode ≠ .survey then s
  else
    let bad := (List.range 47).filter fun i => bitOf failed i
    let s1 := (List.range 16).foldl State.surveyLink s
    let s2 := bad.foldl State.failIsland s1
    let s3 := (List.range 47).foldl (fun t i => t.setIsland i { t.island i with testStatus := if bad.contains i then 3 else 2 }) s2
    ({ s3 with ctl := { s3.ctl with
      surveyResult := if bad.isEmpty then 2 else 3
      surveyFailed := maskOf 47 fun i => bad.contains i
      barred := maskOf 47 fun i => bad.contains i && centralIslands.contains i } } : State).enterMode .config 4
def execSurveyEnd (failed : Nat) (s : State) : Host.Outcome State Fault Refusal := .next (s.surveyEnd failed)

/-! ## DRAIN (R60 to R62, R451) -/

/-- The anchor shows STATE DRAINING and the target (R273). -/
def State.anchorDraining (s : State) : State :=
  ({ s with jrn := { s.jrn with anchorState := 2, anchorTarget := s.withDue.ctl.drainTarget } } : State).writeAnchor
/-- Acceptance stops in a context: its doorbells are answered NOT_ACCEPTING, those that wait for its load among them (R44), and a stall
of its headers ends. A slot that halted the channel before acceptance stays announced where no doorbell is answered (R424). -/
def State.stopAccepting (s : State) (c : Nat) : State :=
  ((if (s.ctx c).headerHalt then s else s.cutBells c 1 (s.ctx c).consumer).judgeEarly c).modCtx c fun x =>
    if x.items.isEmpty ∧ x.state = .waiting then { x with state := if x.pauseBit then .paused else .idle, waitOn := none } else x
def State.beginDrain (s : State) : State :=
  let s1 : State := { s with ctl := { s.ctl with drainFrom := s.ctl.mode, drainHeld := 0 } }
  let s2 := s1.ctxs.foldl (fun t e => if e.2.state = .closed then t else t.stopAccepting e.1) (s1.enterMode .drain 0)
  if s2.journaled then s2.anchorDraining else s2
def State.writeDrain (s : State) : Reply := if s.ctl.mode.traffic then .ok s.beginDrain else .refuse abortState

/-- Some channel has an item that is not completed, paused or halted, or a slot runs (R61, R451). -/
def Ctx.working (x : Ctx) : Bool := !x.items.isEmpty && x.state ≠ .paused && x.state ≠ .halted
def State.drainBusy (s : State) : Bool :=
  (s.ctxs.any fun e => e.2.working) || s.sched.slots.any fun e => decide (e.2.state = 1 ∨ e.2.state = 3)
/-- Some channel holds a paused or halted item. -/
def State.stoppedItem (s : State) : Bool := s.ctxs.any fun e => !e.2.items.isEmpty
/-- DRAIN holds for a cause; the event is raised once per hold. -/
def State.holdDrain (s : State) (cause : Nat) : State :=
  ({ s with ctl := { s.ctl with drainHeld := cause } } : State).raiseIf (decide (s.ctl.drainHeld = 0)) .drainHeld
def State.freeDrain (s : State) : State := { s with ctl := { s.ctl with drainHeld := 0 } }
/-- The EPOCH CLOSE record goes out (R59, R281). -/
def State.beginClose (s : State) : State :=
  if admits s .epoch then
    (s.writeRecord { kind := .epoch, event := 2, mode := s.ctl.rulesOf.code, cause := 4, prevEpoch := s.jrn.epoch, prevEnd := s.jrn.head
                     twin := if s.ctl.rulesOf = .twin then s.obj 0x9020 0 % 4096 else 0 }).stage' .closing
  else s.journalFull .epoch
/-- The epoch is closed: its anchor is to say so. -/
def State.endClose (s : State) : State :=
  (({ s with jrn := { s.jrn with anchorState := 0, anchorTarget := 0 } } : State).stage' .anchoring).writeAnchor
/-- DRAIN is left: what waited for the twin no longer does, and the releases that R287 held back are made at once (DESIGN CHOICE,
assumption log 99). -/
def State.leaveDrain (s : State) : State :=
  let s1 := s.freeDrain
  ({ s1 with twin := { s1.twin with state := 0 } } : State).releaseWaiting
/-- DRAIN ends in a mode without a journal. -/
def State.drainInto (s : State) (m : Mode) : State :=
  match m with
  | .halt => (s.freeDrain.enterHalt 2).leaveDrain
  | .survey => (s.freeDrain.beginSurvey 2).leaveDrain
  | _ => (s.freeDrain.enterMode m 2).leaveDrain
/-- The decision of R61 and R62, once nothing works any more. A hold ends with what caused it. -/
def State.drainTry (s : State) : State :=
  let t := modeOfCode s.ctl.drainTarget
  if t ≠ .keep ∧ t ≠ .twin then
    if s.stoppedItem then s.holdDrain 3
    else if s.journaled ∧ s.jrn.anchorState ≠ 0 then s.freeDrain.beginClose
    else s.drainInto t
  else if s.entryRefusal.isSome then s.holdDrain 1
  else if t = .twin then (if s.ctl.drainHeld = 2 then s else s.freeDrain).beginHello
  else s.freeDrain.beginOpen t 0
/-- The mode of the epoch that is being opened. It is the mode that DRAIN ends into, though DRAIN_TARGET be written again after the OPEN
record is issued (DESIGN CHOICE: R61 does not say which target governs then, assumption log 87). -/
def State.openingMode (s : State) : Mode :=
  match ((s.jrn.log ++ s.jrn.inFlight).filter fun r => r.kind = .epoch && decide (r.event = 1)).getLast? with
  | some r => modeOfCode r.mode
  | none => .keep
/-- DRAIN ends into KEEP or TWIN once its epoch stands: the record, then the anchor. -/
def State.drainOpened (s : State) : State := if s.openStands s.openingMode then s.beginAnchor s.openingMode else s
/-- The anchor stands: of an epoch that is closed, or of the one that DRAIN ends into, whose OPEN record names the mode (assumption log
87). -/
def State.drainAnchored (s : State) : State :=
  if s.upkeepBusy then s
  else if s.jrn.anchorState = 0 then (s.stage' .none).drainTry
  else (s.freeDrain.endOpen s.openingMode 2).releaseWaiting
def State.drainEnd (s : State) : State :=
  if s.ctl.mode ≠ .drain then s
  else match s.ctl.recoverStage with
    | .opening => s.drainOpened
    | .closing => if s.jrn.inFlight.isEmpty then s.endClose else s
    | .anchoring => s.drainAnchored
    | .handshake =>
      if s.drainBusy then (s.stage' .none).freeDrain else if s.twinIsReady then s.freeDrain.beginOpen .twin 0 else s.sendHello
    | _ => if s.drainBusy then s.freeDrain else if s.ctl.drainHeld = 1 then s else s.drainTry
def execDrainEnd (s : State) : Host.Outcome State Fault Refusal := .next s.drainEnd
/-- A held DRAIN, or one whose handshake runs, is checked again (R62). -/
def State.drainCheck (s : State) : State :=
  if s.ctl.mode = .drain ∧ (s.ctl.recoverStage = .handshake ∨ (s.ctl.recoverStage = .none ∧ s.ctl.drainHeld ≠ 0)) ∧ !s.drainBusy then
    (s.stage' .none).drainTry
  else s
/-- TWIN_ENTRY_LIMIT passes in DRAIN: it holds, and a new handshake runs (R62). -/
def State.drainLimit (s : State) : State :=
  if s.ctl.mode = .drain ∧ s.ctl.recoverStage = .handshake ∧ !s.twinIsReady then (s.holdDrain 2).sendHello else s
/-- A write of DRAIN_TARGET (R55, R273); it comes into force with its response (R381). -/
def State.writeTarget (s : State) (v : Nat) : Reply :=
  let s1 := (s.comingDue 0x2001 0 v).syncConfig
  .later (if s1.jrn.anchorState = 2 ∧ s1.ctl.mode = .drain then s1.anchorDraining else s1) (some (0x2001, 0, v)) .none

/-! ## FORMAT (R65, R298) -/

/-- The anchor with EPOCH 0, STATE CLOSED, TAIL 0; positions begin at 0 again. -/
def State.formatJournal (s : State) : State :=
  ({ s with jrn := { failed := s.jrn.failed, writeFault := s.jrn.writeFault, upkeep := s.jrn.upkeep } } : State).writeAnchor
def State.writeFormat (s : State) (discard : Bool) : Reply :=
  if !s.regionOk (anchorAddr s) 64 then .refuse abortRange
  else if s.ctl.mode ≠ .config ∨ (!discard ∧ s.journalValid) then .refuse abortState
  else if !s.jrn.inFlight.isEmpty then .hold s
  else .ok s.formatJournal

/-! ## TAKEOVER (R295) -/

/-- The valid records of the shadow, from its anchor's TAIL to the twin point. -/
def State.shadowRecords (s : State) : List Record :=
  if !s.twin.shadowHeld ∨ s.obj 0x9032 0 = 0 then []
  else
    let b := s.bytesAt (shadowBase s - 0x40) 64
    (scanFrom (fun p => s.bytesAt (shadowAddr s p) 64) (s.obj 0x9032 0) (fieldAt b 0x18 8) (fieldAt b 4 4) 0).1.filter
      fun r => decide (r.pos ≤ s.twin.shadowPoint)
/-- The live items that are not completed, each once, in position order. -/
def pendingOf (l : List Record) : List Record :=
  (l.filter fun r => r.liveAccept && !(l.any fun q => decide (q.kind = .complete) && decide (q.ctx = r.ctx) && decide (q.seq = r.seq)) &&
    !(l.any fun q => q.liveAccept && decide (q.ctx = r.ctx) && decide (q.seq = r.seq) && decide (q.pos < r.pos)))
def pendingEntry (r : Record) : List Byte :=
  leBytes 4 r.ctx ++ leBytes 4 r.slotIndex ++ leBytes 8 r.seq ++ leBytes 8 r.slotAddr ++ leBytes 4 r.epoch ++ leBytes 4 0
/-- A context met in the shadow. -/
def streamEntry (l : List Record) (c : Nat) : List Byte :=
  let top (f : Record → Bool) : Nat := l.foldl (fun m r => if f r ∧ r.ctx = c then max m r.seq else m) 0
  leBytes 4 c ++ leBytes 4 ((pendingOf l).filter fun r => r.ctx = c).length ++ leBytes 8 (top fun r => r.liveAccept) ++
    leBytes 8 (top fun r => decide (r.kind = .complete)) ++ leBytes 8 0
def State.freezeShadow (s : State) : State :=
  let l := s.shadowRecords
  let met := ((l.filter fun r => r.kind = .accept || r.kind = .complete || r.kind = .counter).map (·.ctx)).eraseDups
  { s with twin := { s.twin with
    takeover := 2, waiting := [], lostEpoch := l.foldl (fun m r => max m r.epoch) 0
    pendingItems := (pendingOf l).flatMap pendingEntry, streams := met.flatMap (streamEntry l) } }
/-- The shadow's state is cleared, its anchor with it, and the slots whose writes are still on their way. -/
def State.endTakeover (s : State) : State :=
  if s.twin.takeover = 0 then s
  else
    let t := s.twin
    ({ s with twin := { point := t.point, held := t.held, state := t.state, answer := t.answer, unreachableRaised := t.unreachableRaised,
                              gone := s.shadowsOut } } :
      State).upkeepWrite (shadowBase s - 0x40) (leBytes 64 0)
def State.writeTakeover (s : State) (v : Nat) : Reply :=
  if s.ctl.mode = .halt ∨ s.ctl.mode = .survey then .refuse abortState
  else if v = 1 then .ok (if s.twin.takeover = 0 then s.freezeShadow else s)
  else .ok s.endTakeover

end Sys2Proof.Machine
end

