-- ==== Sys2Proof/Machine/Maltur.lean ====
section
/-! DEFINITION. Maltur: frames in (R368 to R371), the repeat store and answers (R372, R373), the checks of R389, reads, writes
and segments (R375 to R386), commands of the islands and of service (R452 to R458), NOTIFY (R379). -/
namespace Sys2Proof.Machine

/-! ## Frames (R370, R371) -/

/-- The bytes without their stuffing, and whether an escape is open at the end; none at a bad escape. -/
def unstuff : List Byte → Option (List Byte × Bool)
  | [] => some ([], false)
  | b :: r =>
    if b = 0x7D then
      match r with
      | [] => some ([], true)
      | c :: t =>
        if c = 0x5E then (unstuff t).map fun x => (0x7E :: x.1, x.2)
        else if c = 0x5D then (unstuff t).map fun x => (0x7D :: x.1, x.2)
        else none
    else (unstuff r).map fun x => (b :: x.1, x.2)
def stuff (l : List Byte) : List Byte :=
  l.flatMap fun b => if b = 0x7E then [0x7D, 0x5E] else if b = 0x7D then [0x7D, 0x5D] else [b]
/-- The bytes of DATA in a request's frame: none in a SEG-READ. -/
def dataLen (body : List Byte) : Nat := if fieldAt body 0 1 = 3 then 0 else fieldAt body 6 2
/-- The whole length of a request's body with its CRC. -/
def frameLen (body : List Byte) : Nat := 16 + dataLen body
/-- A whole body with its CRC, if that checks. -/
def requestOf (route : Route) (body : List Byte) : Option Request :=
  let n := dataLen body
  if body.length ≠ 16 + n ∨ 256 < fieldAt body 6 2 ∨ fieldAt body (12 + n) 4 ≠ crc32c (body.take (12 + n)) then none
  else some { route := route, service := fieldAt body 0 1, txn := fieldAt body 1 1, index := fieldAt body 2 2, sub := fieldAt body 4 1,
              flags := fieldAt body 5 1, length := fieldAt body 6 2, offset := fieldAt body 8 4, data := (body.drop 12).take n }
/-- A response's body with its CRC. -/
def Response.bytes (r : Response) : List Byte :=
  let b := leBytes 1 r.service ++ leBytes 1 r.txn ++ leBytes 2 r.index ++ leBytes 1 r.sub ++ leBytes 1 r.flags ++
    leBytes 2 r.data.length ++ leBytes 4 r.offset ++ r.data
  b ++ leBytes 4 (crc32c b)

/-! ## Answers (R368, R372, R373) -/

/-- Send a body with its CRC by a route. -/
def State.sendBody (s : State) (route : Route) (b : List Byte) : State :=
  match route with
  | .bytePort => { s with ctl := { s.ctl with output := s.ctl.output ++ [0x7E :: stuff b] } }
  | .node n => s.sendFrame { type := 4, vl := 0, dest := n, word := b.length, payload := b }
/-- Requests at the front that match the last one answered are answered again. The fuel is the queue's length. -/
def State.answerRepeats (s : State) : Nat → State
  | 0 => s
  | n + 1 => match s.ctl.waiting, s.ctl.lastAnswered with
    | r :: rest, some (q, a) =>
      if r = q then
        State.answerRepeats (({ s with ctl := { s.ctl with waiting := rest } } : State).sendBody r.route a.bytes) n
      else s
    | _, _ => s
/-- Answer the request being served. -/
def State.answerRequest (s : State) (r : Request) (flags : Nat) (data : List Byte) : State :=
  let a : Response := { service := r.service % 128 + 128, txn := r.txn, index := r.index, sub := r.sub, flags := flags
                        offset := if r.service = 3 ∨ r.service = 4 then r.offset else 0, data := data }
  let s1 : State := { s with ctl := { s.ctl with waiting := s.ctl.waiting.drop 1, lastAnswered := some (r, a) } }
  (s1.sendBody r.route a.bytes).answerRepeats s1.ctl.waiting.length
/-- Refuse it: ABORT and the code (R372, R389). -/
def State.refuseRequest (s : State) (r : Request) (code : Nat) : State :=
  ({ s with ctl := { s.ctl with lastAbort := code } } : State).answerRequest r 4 (leBytes 4 code)
/-- LINK_CTRL in force (R314, R335). -/
def State.linkForce (s : State) (l v : Nat) : State :=
  if v = 1 then
    let t := s.dropLink l
    if (t.link l).state = 1 then t.setLink l { t.link l with state := 4 } else t
  else s.awaitLock l
/-- An RW value comes into force (R381): a hold of DRAIN is checked again at DRAIN_TARGET (R62), a link obeys its LINK_CTRL. -/
def State.dueNow (s : State) (due : Option (Nat × Nat × Nat)) : State := match due with
  | none => s
  | some (i, sub, v) =>
    let t := s.inForce i sub v
    if i = 0x2001 then t.drainCheck else if i = 0x6051 then t.linkForce (sub - 1) v else t
/-- Issue resumes after a RULE point (R383). -/
def State.endPoint (s : State) : State := { s with ctl := { s.ctl with rulePoint := none } }
def State.followNow (s : State) (a : After) : State := match a with
  | .none => s
  | .point => s.endPoint
  | .protection => s.endPoint.protectionDone
/-- The response of a write returns: what was to come with it comes (R381, R383, R404). -/
def State.returned (s : State) (r : Request) (due : Option (Nat × Nat × Nat)) (a : After) : State :=
  ((({ s with ctl := { s.ctl with acted := false, due := none, after := .none } } : State).dueNow due).followNow a).answerRequest r 0 []
/-- A write has had its effect: it is answered, at once or, where its effect needs writes of JRN or POOL that are not done yet, once
they are (R270, R273, R283). -/
def State.effected (s t : State) (r : Request) (due : Option (Nat × Nat × Nat)) (a : After) : State :=
  if s.upkeepCount < t.upkeepCount ∨ t.pool.jobs.contains .answer then { t with ctl := { t.ctl with acted := true, due := due, after := a } }
  else t.returned r due a
/-- Give a write's reply; a held one leaves the request at the front. -/
def State.reply (s : State) (r : Request) (a : Reply) : State :=
  match a with
  | .ok t => s.effected t r none .none
  | .later t due after => s.effected t r due after
  | .refuse code => s.refuseRequest r code
  | .refuseIn t code => t.refuseRequest r code
  | .hold t => t

/-! ## MALTUR_FRAME (R369, R371, R373) -/

def State.discardFrame (s : State) : State :=
  { s with ctl := { s.ctl with discards := satAdd u32Max s.ctl.discards 1 } }
/-- A request arrives at CTL: the front of the queue is the one being served, and 16 may wait behind it. -/
def State.requestIn (s : State) (r : Request) : State :=
  match s.ctl.waiting with
  | [] =>
    match s.ctl.lastAnswered with
    | some (q, a) => if r = q then s.sendBody r.route a.bytes else { s with ctl := { s.ctl with waiting := [r] } }
    | none => { s with ctl := { s.ctl with waiting := [r] } }
  | q :: l =>
    if r = q then s
    else if 16 ≤ l.length then s.discardFrame.raise .malturOverrun
    else { s with ctl := { s.ctl with waiting := q :: l ++ [r] } }
def State.bodyIn (s : State) (route : Route) (body : List Byte) : State :=
  match requestOf route body with
  | some r => s.requestIn r
  | none => s.discardFrame
/-- One byte of the byte port. -/
def State.byteIn (s : State) (b : Byte) : State :=
  let rx (t : State) (x : Option (List Byte)) : State := { t with ctl := { t.ctl with rx := x } }
  if b = 0x7E then rx (if s.ctl.rx.isSome then s.discardFrame else s) (some [])
  else match s.ctl.rx with
    | none => s
    | some l =>
      match unstuff (l ++ [b]) with
      | none => (rx s none).discardFrame
      | some (body, _) =>
        if body.length < 8 then rx s (some (l ++ [b]))
        else if 256 < fieldAt body 6 2 then (rx s none).discardFrame
        else if body.length < frameLen body then rx s (some (l ++ [b]))
        else (rx s none).bodyIn .bytePort body
/-- A frame of the byte port, or of another node; in HALT and in NODE_SPACE_FULL only the byte port reaches the device (R315, R320). -/
def State.malturFrame (s : State) (route : Route) (bytes : List Byte) : State :=
  match route with
  | .bytePort => bytes.foldl State.byteIn s
  | .node _ => if s.ctl.mode = .halt ∨ s.fab.nodeState = 2 then s else s.bodyIn route bytes
def execMalturFrame (route : Route) (bytes : List Byte) (s : State) : Host.Outcome State Fault Refusal :=
  .next (s.malturFrame route bytes)

/-! ## The checks of R389, steps 1 to 8 -/

/-- Step 1: service and frame form (R375, R378, R388). DATA in a READ or a COMMIT is ignored (DESIGN CHOICE: R375 gives the request none
and names no refusal, assumption log 99). -/
def Request.formRefuses (r : Request) : Option Nat :=
  if r.service = 0 ∨ 5 < r.service then some 0x10000001
  else if 16 ≤ r.flags ∨ (r.offset ≠ 0 ∧ r.service ≠ 3 ∧ r.service ≠ 4) ∨ (r.service = 3 ∧ r.length = 0) ∨
      (r.service = 5 ∧ (r.index ≠ 0x2F00 ∨ r.sub ≠ 0)) then some 0x10000002
  else none
/-- A COMMIT has the effect of a write of 1 to 2F00h:00 (R378). -/
def Request.asWrite (r : Request) : Request := if r.service = 5 then { r with service := 2, length := 1, data := [1] } else r
def Request.value (r : Request) : Nat := leNat r.data
def Request.writes (r : Request) : Bool := decide (r.service = 2) || decide (r.service = 4)
def Request.first (r : Request) : Bool := bitOf r.flags 0
def Request.last (r : Request) : Bool := bitOf r.flags 1
/-- The row of an object; subindex 00h of a RECORD is a U8 RO (R376). -/
def objRow (i sub : Nat) : Option ObjDef :=
  match objDef i sub with
  | some o => some o
  | none => if sub = 0 ∧ 0 < topSub i then some ⟨i, i, 0, 0, .u8, .ro, topSub i, false⟩ else none
/-- Step 6: type and length (R376, R377). -/
def typeRefuses (o : ObjDef) (r : Request) : Option Nat :=
  if r.service = 1 ∨ r.service = 2 then
    if o.type = .domain then some 0x40000003
    else if r.service = 2 ∧ r.length ≠ o.type.size then some 0x40000001
    else none
  else if o.type ≠ .domain then some 0x40000003
  else none
/-- Step 8: the value, or the segment's place. -/
def State.valueRefuses (s : State) (o : ObjDef) (r : Request) : Option Nat :=
  if r.service = 2 then
    if (o.type = .bool8 ∧ 1 < r.value) ∨ !s.valueOk r.index r.sub r.value then some abortRange else none
  else if r.service = 4 ∧ !segmentOk r.index r.offset r.data.length r.last then some 0x10000003
  else none
/-- The first of steps 2 to 8 that fails. -/
def State.objectRefuses (s : State) (r : Request) : Option Nat :=
  if !indexExists r.index then some 0x20000001
  else match objRow r.index r.sub with
    | none => some 0x20000002
    | some o =>
      if !s.modeReach r.index r.sub r.writes then some abortState
      else match s.classRefuses o r.index r.writes with
        | some c => some c
        | none => match typeRefuses o r with
          | some c => some c
          | none => if !s.objReachable r.index r.sub then some 0x70000001 else s.valueRefuses o r

/-! ## Writes with a behaviour of their own -/

def Reply.map (a : Reply) (f : State → State) : Reply :=
  match a with
  | .ok t => .ok (f t)
  | .later t due after => .later (f t) due after
  | b => b
/-- A write of MODE (R56). -/
def State.writeMode (s : State) (v : Nat) : Reply :=
  match v with
  | 0 => s.writeHalt
  | 1 => s.writeConfig
  | 2 => s.writeFlow
  | 3 => s.writeJournaled .keep
  | 4 => s.writeJournaled .twin
  | 5 => s.writeDrain
  | 6 => s.writeRecover
  | 7 => s.writeSurvey
  | _ => .refuse abortState
/-- COMMIT (R383, R385, R419); in DRAIN a hold is checked again (R62). -/
def State.writeCommit (s : State) : Reply :=
  if s.ctl.mode = .halt ∨ s.ctl.mode = .recover ∨ s.ctl.mode = .survey then .refuse abortState
  else if !s.stagedAny then .ok s.drainCheck
  else if !s.regionsOk then .refuse abortRange
  else (s.atPoint State.commitNow .point).map State.drainCheck
/-- DISCARD (R385). -/
def State.writeDiscard (s : State) : State := { s with dict := { s.dict with staged := [], stagedSets := [] } }
/-- A galley command (R164); the configuration image follows it (R283), and under the rules of KEEP or TWIN its answer waits for POOL's
writes. -/
def State.galleyCommand (s : State) (v : Nat) : Reply :=
  let g := s.selGalley
  match (match v with
    | 1 => s.galleyCreate g
    | 2 => s.galleyFlush g
    | _ => s.galleyDelete g) with
  | .ok t => .ok ((if t.journaled then t.poolJobs [.answer] else t).poolRun).syncConfig
  | .hold t => .hold t.poolRun
  | a => a
def State.channelCommand (s : State) (v : Nat) : Reply :=
  match v with
  | 1 => s.pauseAct s.selCtx
  | 2 => s.resumeAct s.selCtx
  | _ => s.abortAct s.selCtx
def State.contextCommand (s : State) (v : Nat) : Reply := if v = 1 then s.openCtx else s.closeCtx
/-- TYPE_CASE_COMMIT (R225, R226). -/
def caseByteOk (b : Byte) : Bool := decide (b.toNat ≤ 7) || decide (b = 0x80)
def State.caseCommit (s : State) (mask : Nat) : Reply :=
  let ports := (List.range 8).filter fun p => bitOf mask p
  if ports.any fun p => !((portCase (s.port p).caseEdit).all caseByteOk) then .refuse abortRange
  else if ports.any fun p => (s.port p).casePending then .refuse abortState
  else .ok (ports.foldl (fun t p =>
    let q := t.port p
    t.setPort p { q with rd := { q.rd with swapPending := true }, wr := { q.wr with swapPending := true } }) s)
/-- COUNTER_CLEAR (R236). -/
def State.clearCounters (s : State) (mask : Nat) : State :=
  ((List.range 8).filter fun p => bitOf mask p).foldl (fun t p => t.setPort p { t.port p with grants := [], waits := [], longest := [] }) s

/-! ## ISLAND_RESET (R352) -/

/-- The central islands: CTL, SCHED, POOL, CTX, JRN. -/
def isCentral (i : Nat) : Bool := centralIslands.contains i
def State.islandReset (s : State) (i : Nat) : Reply :=
  if i = ctlIsland then .refuse abortState
  else if isCentral i ∧ !(s.ctl.mode = .halt ∨ s.ctl.mode = .config ∨ s.ctl.mode = .survey) then .refuse abortState
  else .ok (s.assertReset i)

/-! ## SERVICE (R452 to R458) -/

def State.outOfService (s : State) (i : Nat) : Bool :=
  if 2 ≤ i ∧ i < 15 then (s.island i).retired else (s.island i).heldOut && ((s.island i).inReset || i = tstIsland)
/-- Some byte of [a, a + n) lies in the port's range. Interleaved, eight pages meet every port (R418). -/
def State.touchesPort (s : State) (a n p : Nat) : Bool :=
  if n = 0 then false
  else if s.straps.memIlv then
    (List.range (min 8 ((a + n - 1) / 4096 - a / 4096 + 1))).any fun k => s.portOf (max a ((a / 4096 + k) * 4096)) = some p
  else
    decide (2 ^ 30 * s.straps.memBase.getD p 0 < a + n) &&
      decide (a < 2 ^ 30 * s.straps.memBase.getD p 0 + 2 ^ 30 * s.straps.memSize.getD p 0)
/-- A region of R419, as it stands active, lies in the port's range. -/
def State.portHoldsRegion (s : State) (p : Nat) : Bool :=
  ({ s with dict := { s.dict with staged := [] } } : State).regions.any fun r => match r.1 with
    | some a => s.touchesPort a r.2 p
    | none => false
/-- The lanes active after a mover's lanes retire: spares of other islands take over. -/
def State.lanesLeft (s : State) (m : Nat) : Nat :=
  ((List.range 26).filter fun l => !(moverLanes m).contains l && decide (s.lane l ≤ 1)).length
def State.setHeld (s : State) (i : Nat) (b : Bool) : State := s.setIsland i { s.island i with heldOut := b }
/-- RETIRE of a mover island (R453): no new burst, the present ones to their end, TALLY partials gone, then the mask. -/
def State.retireMoverAct (s : State) (m : Nat) : Reply :=
  let i := moverIsland m
  if (s.island i).retired then .ok s
  else if s.lanesLeft m = 0 then .refuse abortState
  else
    let t := s.setHeld i true
    if t.lanesIdle (moverLanes m) then .ok ((t.restartTallies (moverLanes m)).retireMover m) else .hold t
/-- RETIRE of a memory port (R455): drained as by R361, then held in reset. Its counters keep their values (R458). -/
def State.retirePort (s : State) (p : Nat) : Reply :=
  let i := portIsland p
  if s.outOfService i then .ok s
  else if s.ctl.mode ≠ .config ∧ s.portHoldsRegion p then .refuse abortState
  else
    let t := if (s.island i).heldOut then s else (s.setHeld i true).domainStall p
    if (t.port p).drained then
      let q := t.port p
      let u := t.assertReset i
      .ok (u.setPort p { u.port p with grants := q.grants, waits := q.waits, longest := q.longest })
    else .hold t
/-- RETIRE (R452). -/
def State.retireAct (s : State) (i : Nat) : Reply :=
  if isCentral i then .refuse abortState
  else if i < 15 then s.retireMoverAct (i - 2)
  else if i < 26 then s.retirePort (i - 18)
  else if s.outOfService i then .ok s
  else
    let t := s.setHeld i true
    if 42 ≤ i ∧ i < 46 ∧ !(t.stashPort (i - 42)).tiles.isEmpty then .hold t else .ok (t.assertReset i)
/-- TEST (R452, R456): TST itself leaves reset for its self-test. -/
def State.testAct (s : State) (i : Nat) : Reply :=
  let k := s.island i
  let tst := s.island tstIsland
  if isCentral i ∨ !s.outOfService i ∨ k.testStatus = 1 ∨ (i ≠ tstIsland ∧ (tst.inReset ∨ tst.heldOut)) then .refuse abortState
  else .ok (s.setIsland i { k with testStatus := 1, inReset := if i = tstIsland then false else k.inReset })
/-- RETURN (R458): answered once the island may leave reset (R351). -/
def State.returnAct (s : State) (i : Nat) : Reply :=
  let k := s.island i
  if isCentral i ∨ !s.outOfService i ∨ k.testStatus = 1 then .refuse abortState
  else if !({ k with heldOut := false } : Island).mayRelease then .hold s
  else if i < 15 then .ok ((s.setIsland i { k with inReset := false, gated := false, pdack := false }).returnMover (i - 2)).fallHeld
  else .ok ((s.setHeld i false).releaseReset i)
def State.serviceCommand (s : State) (i v : Nat) : Reply :=
  match v with
  | 1 => s.retireAct i
  | 2 => s.testAct i
  | _ => s.returnAct i

/-! ## WRITE (R376, R381, R384) -/

/-- A slot register of the dictionary's (R437, R443, R444): a START that does not begin a run stores nothing, and an ABORT
beside it on a running slot takes effect. -/
def State.writeSlotObj (s : State) (k sub v : Nat) : Reply :=
  let idle := bitOf v 0 && !s.canStart k
  if s.slotOwner k ≠ 1 then .refuse abortState
  else if sub = 5 ∧ idle then (if bitOf v 1 then .refuseIn (s.abortRun k) abortState else .refuse abortState)
  else .later (s.comingDue (0x8000 + k) sub v).syncConfig (some (0x8000 + k, sub, v)) .none
/-- An object without behaviour of its own: staged, or in force when the response returns. -/
def State.writePlain (s : State) (i sub v : Nat) : Reply :=
  match objDef i sub with
  | none => .refuse 0x20000002
  | some o =>
    if o.cls = .rws ∨ o.cls = .rwc then .ok (s.stage i sub (heldBits i v))
    else .later (s.comingDue i sub (heldBits i v)).syncConfig (some (i, sub, heldBits i v)) .none
/-- The write's effect, after the checks of steps 1 to 8. -/
def State.writeObject (s : State) (i sub v : Nat) : Reply :=
  match i with
  | 0x2000 => s.writeMode v
  | 0x2001 => s.writeTarget v
  | 0x2F00 => s.writeCommit
  | 0x2F01 => .ok s.writeDiscard
  | 0x3001 => s.islandReset (sub - 1)
  | 0x3400 => s.serviceCommand (sub - 1) v
  | 0x4041 => s.caseCommit v
  | 0xA22F => .ok (s.clearCounters v)
  | 0x5104 => s.protectCommit
  | 0x6002 => s.renumber
  | 0x7012 => s.galleyCommand v
  | 0x9006 => s.writeFormat (decide (v = 2))
  | 0x9040 => s.writeTakeover v
  | 0xC000 => s.writeField sub v
  | 0xC001 => s.channelCommand v
  | 0xC003 => s.contextCommand v
  | _ => if isSlotReg i sub then s.writeSlotObj (i - 0x8000) sub v else s.writePlain i sub v

/-! ## Segments (R377, R399, R400) -/

/-- Bytes land in a fixed-size value; what they do not cover stays. -/
def State.segTypeCase (s : State) (p off : Nat) (bs : List Byte) : Reply :=
  let q := s.port p
  if q.casePending then .refuse abortState
  else .ok (s.setPort p { q with caseEdit := Tab.putAll slotByteDefault q.caseEdit (placed off bs) }).syncConfig
def State.segNodeSet (s : State) (off : Nat) (bs : List Byte) : State :=
  { s with dict := { s.dict with stagedSets := Tab.insert (s.obj 0x6200 0) (patch s.nodeSet off bs) s.dict.stagedSets } }
def State.segKey (s : State) (i : Nat) (r : Request) : Reply :=
  if s.ctl.mode ≠ .config then .refuse abortState
  else .ok { s with prot := s.prot.take i r.offset r.data r.first r.last }
def State.segTag (s : State) (i : Nat) (r : Request) : Reply :=
  if s.prot.nonce.isNone then .refuse 0x60000003
  else .ok { s with prot := s.prot.take i r.offset r.data r.first r.last }
def State.writeSegment (s : State) (r : Request) : Reply :=
  match r.index with
  | 0x4040 => s.segTypeCase (r.sub - 1) r.offset r.data
  | 0x5010 => s.segKey 0x5010 r
  | 0x5011 => s.segKey 0x5011 r
  | 0x5100 => .ok (s.writeProposed r.offset r.data).syncConfig
  | 0x5102 => s.segTag 0x5102 r
  | 0x5103 => s.segTag 0x5103 r
  | _ => .ok (s.segNodeSet r.offset r.data)

/-! ## Reads (R376, R377, R382, R396, R400) -/

/-- The bytes of a READ, its STAGED flag, and the state it leaves: a read of NONCE issues one, a read of ISLAND_STATE
clears FAULT (R337). -/
def State.readValue (s : State) (o : ObjDef) (i sub : Nat) : State × List Byte × Bool :=
  if o.type = .str then (s, strBytes i, false)
  else if i = 0x5101 then
    let r := s.issueNonce
    (r.1, leBytes 8 r.2, false)
  else if i = 0x3000 ∧ sub ≠ 0 then
    (s.setIsland (sub - 1) { s.island (sub - 1) with fault := false }, leBytes 1 (s.readObj i sub), false)
  else if o.cls = .rws ∨ o.cls = .rwc then
    (s, leBytes o.type.size (s.objNext i sub), s.objNext i sub ≠ s.obj i sub)
  else (s, leBytes o.type.size (s.readObj i sub), false)
def State.readRequest (s : State) (r : Request) : State :=
  if isSlotReg r.index r.sub ∧ s.slotOwner (r.index - 0x8000) ≠ 1 then s.refuseRequest r abortState
  else match objRow r.index r.sub with
    | none => s.refuseRequest r 0x20000002
    | some o =>
      let v := s.readValue o r.index r.sub
      v.1.answerRequest r (boolBit v.2.2 3) v.2.1
/-- A SEG-READ; with FIRST and OFFSET 0 it takes a new wait snapshot. -/
def State.segReadRequest (s : State) (r : Request) : State :=
  let t := if r.index = 0xA800 ∧ r.first ∧ r.offset = 0 then s.takeSnapshot else s
  let b := t.domain r.index r.sub
  t.answerRequest r (boolBit (decide (b.length ≤ r.offset + r.length)) 1) ((b.drop r.offset).take r.length)

/-! ## Service of the request at the front (R369, R389) -/

/-- Serve a request: the checks, then its effect and its answer; one that has had its effect is answered once JRN's writes
are done (R270). -/
def State.serve (s : State) (r : Request) : State :=
  if s.ctl.acted then
    (if s.upkeepBusy || s.pool.jobs.contains .answer then s.poolRun else s.returned r s.ctl.due s.ctl.after)
  else match r.formRefuses with
  | some c => s.refuseRequest r c
  | none =>
    let w := r.asWrite
    match s.objectRefuses w with
    | some c => s.refuseRequest r c
    | none =>
      match w.service with
      | 1 => s.readRequest r
      | 2 => s.reply r (s.writeObject w.index w.sub w.value)
      | 3 => s.segReadRequest r
      | _ => s.reply r (s.writeSegment r)
/-- A command serves the request at the front where it names it. -/
def State.serveFor (s : State) (named : Request → Bool) : State :=
  match s.ctl.waiting with
  | r :: _ => if named r then s.serve r else s
  | [] => s
/-- A WRITE to an object. -/
def Request.writesTo (i : Nat) (r : Request) : Bool := decide (r.service = 2) && decide (r.index = i)
/-- A WRITE of a value to an object. -/
def Request.writesValue (i v : Nat) (r : Request) : Bool := r.writesTo i && decide (r.value = v)
/-- A request of a service, or of a code that is no service. -/
def Request.serves (n : Nat) (r : Request) : Bool := decide (r.service = n) || decide (r.service = 0) || decide (5 < r.service)
/-- The objects whose writes act by themselves. -/
def actingObjects : List Nat :=
  [0x2000, 0x2001, 0x2F00, 0x2F01, 0x3001, 0x3400, 0x4041, 0xA22F, 0x5104, 0x6002, 0x6051, 0x7012, 0x9006, 0x9040, 0xC000, 0xC001, 0xC003]
def Request.plainWrite (r : Request) : Bool :=
  decide (r.service = 2) && !actingObjects.contains r.index && !isSlotReg r.index r.sub

def execRead (s : State) : Host.Outcome State Fault Refusal := .next (s.serveFor (Request.serves 1))
def execWrite (s : State) : Host.Outcome State Fault Refusal := .next (s.serveFor (Request.serves 2))
def execSegRead (s : State) : Host.Outcome State Fault Refusal := .next (s.serveFor (Request.serves 3))
def execSegWrite (s : State) : Host.Outcome State Fault Refusal := .next (s.serveFor (Request.serves 4))
def execCommit (s : State) : Host.Outcome State Fault Refusal :=
  .next (s.serveFor fun r => r.serves 5 || r.writesTo 0x2F00)
def execDiscard (s : State) : Host.Outcome State Fault Refusal := .next (s.serveFor (Request.writesTo 0x2F01))
def execObjectWrite (s : State) : Host.Outcome State Fault Refusal := .next (s.serveFor Request.plainWrite)
def execModeWriteHalt (s : State) : Host.Outcome State Fault Refusal := .next (s.serveFor (Request.writesValue 0x2000 0))
def execModeWriteConfig (s : State) : Host.Outcome State Fault Refusal := .next (s.serveFor (Request.writesValue 0x2000 1))
def execModeWriteFlow (s : State) : Host.Outcome State Fault Refusal := .next (s.serveFor (Request.writesValue 0x2000 2))
def execModeWriteKeep (s : State) : Host.Outcome State Fault Refusal := .next (s.serveFor (Request.writesValue 0x2000 3))
def execModeWriteTwin (s : State) : Host.Outcome State Fault Refusal := .next (s.serveFor (Request.writesValue 0x2000 4))
def execModeWriteDrain (s : State) : Host.Outcome State Fault Refusal := .next (s.serveFor (Request.writesValue 0x2000 5))
def execModeWriteRecover (s : State) : Host.Outcome State Fault Refusal := .next (s.serveFor (Request.writesValue 0x2000 6))
def execModeWriteSurvey (s : State) : Host.Outcome State Fault Refusal := .next (s.serveFor (Request.writesValue 0x2000 7))
def execDrainTargetWrite (s : State) : Host.Outcome State Fault Refusal := .next (s.serveFor (Request.writesTo 0x2001))
def execGalleyCreate (s : State) : Host.Outcome State Fault Refusal := .next (s.serveFor (Request.writesValue 0x7012 1))
def execGalleyFlush (s : State) : Host.Outcome State Fault Refusal := .next (s.serveFor (Request.writesValue 0x7012 2))
def execGalleyDelete (s : State) : Host.Outcome State Fault Refusal := .next (s.serveFor (Request.writesValue 0x7012 3))
def execChannelPause (s : State) : Host.Outcome State Fault Refusal := .next (s.serveFor (Request.writesValue 0xC001 1))
def execChannelResume (s : State) : Host.Outcome State Fault Refusal := .next (s.serveFor (Request.writesValue 0xC001 2))
def execChannelAbort (s : State) : Host.Outcome State Fault Refusal := .next (s.serveFor (Request.writesValue 0xC001 3))
def execContextOpen (s : State) : Host.Outcome State Fault Refusal := .next (s.serveFor (Request.writesValue 0xC003 1))
def execContextClose (s : State) : Host.Outcome State Fault Refusal := .next (s.serveFor (Request.writesValue 0xC003 2))
def execContextFieldWrite (s : State) : Host.Outcome State Fault Refusal := .next (s.serveFor (Request.writesTo 0xC000))
def execFormat (s : State) : Host.Outcome State Fault Refusal := .next (s.serveFor (Request.writesValue 0x9006 1))
def execFormatDiscard (s : State) : Host.Outcome State Fault Refusal := .next (s.serveFor (Request.writesValue 0x9006 2))
def execTakeoverFreeze (s : State) : Host.Outcome State Fault Refusal := .next (s.serveFor (Request.writesValue 0x9040 1))
def execTakeoverEnd (s : State) : Host.Outcome State Fault Refusal := .next (s.serveFor (Request.writesValue 0x9040 2))
def execRenumber (s : State) : Host.Outcome State Fault Refusal := .next (s.serveFor (Request.writesTo 0x6002))
def execTypeCaseCommit (s : State) : Host.Outcome State Fault Refusal := .next (s.serveFor (Request.writesTo 0x4041))
def execCounterClear (s : State) : Host.Outcome State Fault Refusal := .next (s.serveFor (Request.writesTo 0xA22F))
def execIslandReset (s : State) : Host.Outcome State Fault Refusal := .next (s.serveFor (Request.writesTo 0x3001))
def execIslandStateRead (s : State) : Host.Outcome State Fault Refusal :=
  .next (s.serveFor fun r => decide (r.service = 1) && decide (r.index = 0x3000))
def execLinkCtrlWrite (s : State) : Host.Outcome State Fault Refusal := .next (s.serveFor (Request.writesTo 0x6051))
def execRetire (s : State) : Host.Outcome State Fault Refusal := .next (s.serveFor (Request.writesValue 0x3400 1))
def execTest (s : State) : Host.Outcome State Fault Refusal := .next (s.serveFor (Request.writesValue 0x3400 2))
def execReturnIsland (s : State) : Host.Outcome State Fault Refusal := .next (s.serveFor (Request.writesValue 0x3400 3))
def execKeyWrite (s : State) : Host.Outcome State Fault Refusal :=
  .next (s.serveFor fun r => decide (r.service = 4) && decide (r.index = 0x5010 ∨ r.index = 0x5011))
def execProposedWrite (s : State) : Host.Outcome State Fault Refusal :=
  .next (s.serveFor fun r => decide (r.service = 4) && decide (r.index = 0x5100))
def execNonceRead (s : State) : Host.Outcome State Fault Refusal :=
  .next (s.serveFor fun r => decide (r.service = 1) && decide (r.index = 0x5101))
def execTagWrite (s : State) : Host.Outcome State Fault Refusal :=
  .next (s.serveFor fun r => decide (r.service = 4) && decide (r.index = 0x5102 ∨ r.index = 0x5103))
def execProtectCommit (s : State) : Host.Outcome State Fault Refusal := .next (s.serveFor (Request.writesTo 0x5104))
def execWaitSnapshotRead (s : State) : Host.Outcome State Fault Refusal :=
  .next (s.serveFor fun r => decide (r.service = 3) && decide (r.index = 0xA800))

/-! ## TWIN_ENTRY_LIMIT (R58, R62, R284) -/

/-- No ready answer in time: a mode write is refused, a DRAIN holds; RECOVER waits without limit (R294). -/
def State.entryLimit (s : State) : State :=
  if s.obj 0x9021 0 = 0 then s
  else if s.ctl.mode = .config ∧ s.ctl.recoverStage = .handshake ∧ !s.twinIsReady then
    match s.ctl.waiting with
    | r :: _ => (s.stage' .none).refuseRequest r abortState
    | [] => s.stage' .none
  else s.drainLimit
def execTwinEntryLimit (s : State) : Host.Outcome State Fault Refusal := .next s.entryLimit

/-! ## NOTIFY (R379) -/

/-- Where NOTIFY frames go, if anywhere. -/
def State.notifyRoute (s : State) : Option Route :=
  let v := s.obj 0x1020 0
  if v = 0x8000 then some .bytePort else if v < 4096 then some (.node v) else none
/-- A NOTIFY is due: it carries the raises since the last one. INDEX, SUB, FLAGS, OFFSET and the reserved bytes are 0 (DESIGN CHOICE for
the first four: R379 gives them no value, assumption log 99). -/
def State.notify (s : State) (event : Nat) : State :=
  let n := Tab.get zeroTab s.ctl.notifyPending event
  match s.notifyRoute with
  | some route =>
    if Tab.get zeroTab s.ctl.notifyDue event = 0 then s
    else
      let a : Response := { service := 6, txn := s.ctl.notifyCount % 256, index := 0, sub := 0, flags := 0, offset := 0
                            data := leBytes 2 event ++ leBytes 2 n ++ leBytes 1 s.ctl.mode.code ++ leBytes 3 0 }
      ({ s with ctl := { s.ctl with notifyCount := s.ctl.notifyCount + 1
                                    notifyDue := Tab.put zeroTab s.ctl.notifyDue event 0
                                    notifyPending := Tab.put zeroTab s.ctl.notifyPending event 0 } } : State).sendBody route a.bytes
  | none => s
def execNotify (event : Nat) (s : State) : Host.Outcome State Fault Refusal := .next (s.notify event)

end Sys2Proof.Machine
end

