-- ==== Sys2Proof/Machine/LegacyCmds.lean ====
section
/-! DEFINITION. The commands of the legacy slots (R436 to R448): register writes by the window or the dictionary, and the end of
a run. -/
namespace Sys2Proof.Machine

/-- A write of a slot's register by its route: at the doorbell port's window, or as the request at the front of CTL's
queue that writes the value to the slot's object. -/
def State.slotWrite (s : State) (via : Via) (slot reg data : Nat) : State :=
  if 64 ≤ slot then s
  else match via with
    | .window id => s.windowPort id slot (reg % 0x400 / 8 * 8) true data
    | .dictionary => s.serveFor fun r => r.writesValue (0x8000 + slot) data && decide (r.sub = reg / 8 + 2)
/-- START and ABORT in a value of CTRL (R439). -/
def startBit (v : Nat) : Bool := bitOf v 0
def abortBit (v : Nat) : Bool := bitOf v 1
def execLegacyShadowWrite (via : Via) (slot reg data : Nat) (s : State) : Host.Outcome State Fault Refusal :=
  .next (if reg % 0x400 / 8 * 8 = 0x18 ∧ (startBit data ∨ abortBit data) then s else s.slotWrite via slot reg data)
def execLegacyStart (via : Via) (slot data : Nat) (s : State) : Host.Outcome State Fault Refusal :=
  .next (if startBit data then s.slotWrite via slot 0x18 data else s)
def execLegacyAbort (via : Via) (slot data : Nat) (s : State) : Host.Outcome State Fault Refusal :=
  .next (if abortBit data then s.slotWrite via slot 0x18 data else s)
def execLegacyRunEnd (slot : Nat) (s : State) : Host.Outcome State Fault Refusal := .next (s.runEnd slot)

end Sys2Proof.Machine
end

