-- ==== Sys2Proof/Machine/Islands.lean ====
section
/-! DEFINITION. The islands' own commands: resets, clocks and faults (R337 to R352), power (R353), event rounds and pulses (R345,
R433), the stash ports (R363 to R366, R427), tests (R434, R435, R456), the scrubber (R463). -/
namespace Sys2Proof.Machine

/-! ## Resets, clocks, faults -/

/-- A central island's reset resets the device outside HALT, CONFIG and SURVEY (R352, R432). -/
def State.centralAlone (s : State) : Bool := s.ctl.mode = .halt || s.ctl.mode = .config || s.ctl.mode = .survey
/-- The PCS of a link loses lock (R314): CTL resets the link's island (R352), so that the link goes down; it trains again once its island is
released and the PCS reports lock. -/
def State.lockLost (s : State) (l : Nat) : State :=
  let t := if l < 16 ∧ !(s.island (linkIsland l)).gated then s.assertReset (linkIsland l) else s
  t.setLink l { t.link l with lock := false, good := 0 }
def execLinkLockLoss (link : Nat) (s : State) : Host.Outcome State Fault Refusal := .next (s.lockLost link)
/-- isl_RST_N falls; CTL has no such input. -/
def State.resetLow (s : State) (i : Nat) : State :=
  if i = ctlIsland ∨ 47 ≤ i then s
  else
    let t := s.setIsland i { s.island i with rstLow := true }
    if isCentral i ∧ !s.centralAlone then t.deviceReset t.straps false else t.assertReset i
def execIslandResetAssert (island : Nat) (s : State) : Host.Outcome State Fault Refusal := .next (s.resetLow island)
/-- isl_RST_N is high again, isl_PWROK at a level, and CTL releases the island where R351 is met. -/
def State.resetHigh (s : State) (i : Nat) (pwrok : Bool) : State :=
  if i = ctlIsland ∨ 47 ≤ i then s else (s.setIsland i { s.island i with rstLow := false, pwrok := pwrok }).releaseReset i
def execIslandResetRelease (pins : IslandPins) (s : State) : Host.Outcome State Fault Refusal :=
  .next (s.resetHigh pins.island pins.pwrok)
/-- The island is a memory port whose HOLD CTL accepts as asserted (R358). -/
def State.onHold (s : State) (i : Nat) : Bool := decide (18 ≤ i) && decide (i < 26) && (s.port (i - 18)).hold
/-- No edge for 64 cycles: CLOCK_PRESENT falls, and the event is raised where the clock had to run (R338). What stands at a port hangs
(R347), and what needs it later stalls (R348); while the port is on HOLD nothing stalls (R358). -/
def State.clockGone (s : State) (i : Nat) : State :=
  let k := s.island i
  if 47 ≤ i ∨ !k.clockPresent then s
  else
    let t := (s.setIsland i { k with clockPresent := false, clockPaused := s.onHold i }).raiseIf
      (!k.gated && !k.inReset && !s.onHold i) .clockLost
    if 18 ≤ i ∧ i < 26 ∧ !s.onHold i then (t.hang (i - 18) true).domainStall (i - 18) else t
/-- A loss of CLK_CTL is a loss of the device (R339). -/
def execClockLost (island : Nat) (s : State) : Host.Outcome State Fault Refusal :=
  if island = ctlIsland then .fault .deviceLost else .next (s.clockGone island)
/-- A unit that waited goes on with its work at memory (R346, R347). -/
def State.unitGoes (s : State) (i : Nat) : State :=
  if i = poolIsland then s.poolRun else if i = jrnIsland then s.upkeepNext else s
/-- The clock runs again; a hang ends (R347). -/
def State.clockBack (s : State) (i : Nat) : State :=
  if 47 ≤ i then s
  else
    let k := s.island i
    let t := s.setIsland i { k with clockPresent := true, clockPaused := false }
    if k.clockPresent ∨ k.inReset ∨ k.gated then t
    else if 18 ≤ i ∧ i < 26 then (t.hang (i - 18) false).resumePort (i - 18)
    else if 26 ≤ i ∧ i < 42 then t.awaitLock (i - 26)
    else t.unitGoes i
def execClockReturn (island : Nat) (s : State) : Host.Outcome State Fault Refusal := .next (s.clockBack island)
/-- An island reports a fault (R352): a mover is masked, cut and retired (R234, R235), a central island resets the device, any other is
reset. -/
def State.islandFault (s : State) (i : Nat) : State :=
  if 47 ≤ i then s
  else
    let k := s.island i
    let t := (s.setIsland i { k with fault := true, faults := satAdd u16Max k.faults 1 }).raise .islandFault
    if isCentral i then t.deviceReset t.straps false
    else if i < 15 then (if k.retired then t else ((t.maskReqs (moverLanes (i - 2))).cutLanes (moverLanes (i - 2))).retireMover (i - 2))
    else t.assertReset i
def execIslandFault (island : Nat) (s : State) : Host.Outcome State Fault Refusal := .next (s.islandFault island)
/-- A port's answer inputs: ignored while its island takes no input (R410); one whose tag is not outstanding is an island fault, for
which CTL resets Pn (R417). -/
def State.portAnswer (s : State) (p : Nat) (write : Bool) (tag : Nat) (answer : State → State) : State :=
  if 8 ≤ p ∨ (s.island (portIsland p)).unreachable then s
  else if (s.port p).expects write tag then answer s
  else s.islandFault (portIsland p)
def execReadDataReturn (port tag : Nat) (err : Bool) (s : State) : Host.Outcome State Fault Refusal :=
  .next (s.portAnswer port false tag fun t => t.readData port tag err)
def execWriteResponse (port tag : Nat) (err applied : Bool) (s : State) : Host.Outcome State Fault Refusal :=
  .next (s.portAnswer port true tag fun t => t.writeResponse port tag err applied)

/-! ## Power (R353) -/

/-- PDREQ: new work into the island stops. -/
def State.powerRequest (s : State) (i : Nat) : State :=
  if i = ctlIsland ∨ 47 ≤ i then s
  else
    let t := s.setIsland i { s.island i with pdreq := true }
    if 18 ≤ i ∧ i < 26 then t.domainStall (i - 18)
    else if 26 ≤ i ∧ i < 42 then t.dropLink (i - 26)
    else if i = tstIsland then t.abandonTests fun _ => true
    else t
def execPowerDownRequest (island : Nat) (s : State) : Host.Outcome State Fault Refusal := .next (s.powerRequest island)
/-- The island holds no transfer, and a memory port's domain is down. -/
def State.powerIdle (s : State) (i : Nat) : Bool :=
  if i < 15 then s.lanesIdle (moverLanes (i - 2))
  else if 18 ≤ i ∧ i < 26 then (s.port (i - 18)).qack && (s.port (i - 18)).drained
  else if 26 ≤ i ∧ i < 42 then (s.laneAccesses [linkReq (i - 26)]).isEmpty
  else if 42 ≤ i ∧ i < 46 then (s.stashPort (i - 42)).tiles.isEmpty
  else true
/-- PDACK: the island is masked and gated, and its outputs read what reset gives them (R364, R410); a mover's lanes leave the active set,
and no spare takes over (R454). -/
def State.powerAck (s : State) (i : Nat) : State :=
  let k := s.island i
  if 47 ≤ i ∨ isCentral i ∨ !k.pdreq ∨ k.pdack ∨ !s.powerIdle i then s
  else
    let t := (s.maskReqs (islandReqs i)).setIsland i { k with pdack := true, gated := true }
    if i < 15 then (moverLanes (i - 2)).foldl (fun u l => if u.lane l = 2 then u else u.setLane l 3) t
    else if 18 ≤ i ∧ i < 26 then t.setPort (i - 18) { t.port (i - 18) with qack := false }
    else if 26 ≤ i ∧ i < 42 then t.setLink (i - 26) { t.link (i - 26) with state := 0, txBlock := [] }
    else if 42 ≤ i ∧ i < 46 then t.setStash (i - 42) { t.stashPort (i - 42) with wake := false, leadPassed := false }
    else t
def execPowerDownAck (island : Nat) (s : State) : Host.Outcome State Fault Refusal := .next (s.powerAck island)
/-- PDREQ falls, isl_PWROK at a level: after PDACK the island is held in reset until R351 is met, before it the island goes on. -/
def State.powerRelease (s : State) (i : Nat) (pwrok : Bool) : State :=
  let k := s.island i
  if 47 ≤ i ∨ !k.pdreq then s
  else
    let t := s.setIsland i { k with pdreq := false, pwrok := pwrok }
    if k.pdack then t.assertReset i
    else if 18 ≤ i ∧ i < 26 then t.resumePort (i - 18)
    else if 26 ≤ i ∧ i < 42 then t.awaitLock (i - 26)
    else t
def execPowerDownRelease (pins : IslandPins) (s : State) : Host.Outcome State Fault Refusal :=
  .next (s.powerRelease pins.island pins.pwrok)

/-! ## Events (R345, R346, R433) -/

/-- CTL holds up to 65,535 pending events per wire. -/
def evtRoom : Nat := 65535
/-- A round takes what the wire has room for (R345), and posts that the source held back follow (R346). -/
def State.eventRound (s : State) (source wire : Nat) : State :=
  let k := postKey source wire
  let have' := Tab.get zeroTab s.ctl.evtPending wire
  let n := min (s.postsOf source wire) (evtRoom - have')
  let left := s.postsOf source wire - n
  let owed := Tab.get zeroTab s.ctl.owed k
  let m := min owed (32767 - left)
  let t : State := { s with ctl := { s.ctl with
    posts := Tab.put zeroTab s.ctl.posts k (left + m)
    owed := Tab.put zeroTab s.ctl.owed k (owed - m)
    evtPending := Tab.put zeroTab s.ctl.evtPending wire (have' + n) } }
  if m = 0 then t else t.unitGoes source
def execEventRound (source wire : Nat) (s : State) : Host.Outcome State Fault Refusal := .next (s.eventRound source wire)
/-- One pulse of EVT[w]. -/
def State.evtPulse (s : State) (wire : Nat) : State :=
  let n := Tab.get zeroTab s.ctl.evtPending wire
  if n = 0 then s
  else { s with ctl := { s.ctl with
    evtPending := Tab.put zeroTab s.ctl.evtPending wire (n - 1)
    evtPulses := Tab.put zeroTab s.ctl.evtPulses wire (Tab.get zeroTab s.ctl.evtPulses wire + 1) } }
def execEvtPulse (wire : Nat) (s : State) : Host.Outcome State Fault Refusal := .next (s.evtPulse wire)

/-! ## Stash ports (R363 to R366, R427) -/

def State.wakeLead (s : State) (n : Nat) : State :=
  let k := s.stashPort n
  if k.wake then s.setStash n { k with leadPassed := true } else s
def execWakeLead (stash : Nat) (s : State) : Host.Outcome State Fault Refusal := .next (s.wakeLead stash)
/-- WAKE_IDLE has passed with no tile issued: the wake line falls (R364). A tile that Sn still holds counts as one to issue, and keeps
the line high (DESIGN CHOICE, assumption log 83). -/
def State.wakeIdle (s : State) (n : Nat) : State :=
  let k := s.stashPort n
  if k.wake ∧ k.tiles.isEmpty ∧ s.obj 0x3303 (n + 1) ≠ 0 then s.setStash n { k with wake := false, leadPassed := false } else s
def execWakeIdle (stash : Nat) (s : State) : Host.Outcome State Fault Refusal := .next (s.wakeIdle stash)
/-- The tile at the front may be delivered. -/
def StashPort.offers (k : StashPort) : Option PortReq := if k.wake && k.leadPassed then k.tiles.head? else none
/-- The outputs TADDR, TDATA and TLEN while TVALID is high (R425, R427): TDATA is filled with zeros to 256 B, and TLEN reads 0 for a full
tile of STASH_TILE bytes. -/
def State.tileSignals (s : State) (n : Nat) : Option (Nat × List Byte × Nat) :=
  ((s.stashPort n).offers.bind fun t => t.beats.head?).map fun b =>
    (b.addr, b.data.map (·.2) ++ List.replicate (256 - b.data.length) 0, if b.data.length = s.obj 0x3300 (n + 1) then 0 else b.data.length)
/-- The output Ln_RATE: a copy of LINK_RATE, 0 while the island is in reset or gated (R410, R428). -/
def State.linkRate (s : State) (l : Nat) : Nat :=
  let k := s.island (linkIsland l)
  if k.inReset || k.gated then 0 else s.obj 0x6020 0
/-- The cluster takes the tile: its bytes stand as a write at their home address (R48), and the transfer is the write's answer
(R240). -/
def State.tileTaken (s : State) (n : Nat) : State :=
  let k := s.stashPort n
  match k.offers with
  | some t =>
    let s1 := (s.setStash n { k with tiles := k.tiles.drop 1, refused := false }).land (t.beats.flatMap (·.data))
    (match t.beats.head?.bind fun b => s.portOf b.addr with
     | some p => if s1.accessFor fun o => o = t.owner then s1 else s1.writeAnswered p t.block t.owner
     | none => s1)
  | none => s
def execStashTileTaken (stash : Nat) (s : State) : Host.Outcome State Fault Refusal := .next (s.tileTaken stash)
def State.tileRefused (s : State) (n : Nat) : State :=
  let k := s.stashPort n
  if k.offers.isSome then s.setStash n { k with refused := true } else s
def execStashTileRefused (stash : Nat) (s : State) : Host.Outcome State Fault Refusal := .next (s.tileRefused stash)
/-- The refused time reaches STASH_HOLD_LIMIT. -/
def State.tileFallback (s : State) (n : Nat) : State :=
  if (s.stashPort n).refused ∧ s.obj 0x3302 (n + 1) ≠ 0 then s.fallBack n else s
def execStashFallback (stash : Nat) (s : State) : Host.Outcome State Fault Refusal := .next (s.tileFallback stash)

/-! ## Tests (R434, R435, R456) and the scrubber (R463) -/

/-- An island's tests end; TST is held out of service again (R452). In SURVEY the survey reports. -/
def State.testEnd (s : State) (i : Nat) (passed : Bool) : State :=
  let k := s.island i
  if 47 ≤ i ∨ k.testStatus ≠ 1 ∨ s.ctl.mode = .survey then s
  else s.setIsland i { k with testStatus := if passed then 2 else 3, inReset := k.inReset || decide (i = tstIsland) }
def execTestEnd (island : Nat) (passed : Bool) (s : State) : Host.Outcome State Fault Refusal := .next (s.testEnd island passed)
/-- The island's wrapper may take control of its boundary. -/
def State.mayWrap (s : State) (i : Nat) : Bool :=
  let k := s.island i
  k.retired || k.inReset || (k.gated && k.clockPresent) || s.ctl.mode = .survey
/-- A request through the network, which is then out of its reset: refused for an island in service. -/
def State.wrapRequest (s : State) (i : Nat) : State :=
  let t : State := { s with tapReset := false }
  if 47 ≤ i ∨ t.mayWrap i then t else t.setIsland i { t.island i with testStatus := 4 }
def execTestWrapRequest (island : Nat) (s : State) : Host.Outcome State Fault Refusal := .next (s.wrapRequest island)
def execTestAccessReset (s : State) : Host.Outcome State Fault Refusal := .next { s with tapReset := true }
/-- A word of the context store is corrected, or counts as uncorrectable, a fault of CTX, and the device resets. -/
def State.scrubWord (s : State) (offset : Nat) (correctable : Bool) : State :=
  let k := s.scrub
  if correctable then { s with scrub := { k with corrected := satAdd u32Max k.corrected 1 } }
  else
    ({ s with scrub := { k with uncorrected := satAdd u16Max k.uncorrected 1, address := offset % 2 ^ 25 / 8 * 8 } } : State).deviceReset
      s.straps true
def execScrub (offset : Nat) (correctable : Bool) (s : State) : Host.Outcome State Fault Refusal := .next (s.scrubWord offset correctable)

end Sys2Proof.Machine
end

