-- ==== Sys2Proof/Machine/Dispatch.lean ====
section
/-! DEFINITION. Each command of the table and its meaning. -/
namespace Sys2Proof.Machine

/-- The effect of a command on everything but the queue. -/
def exec (i : Instr) (s : State) : Host.Outcome State Fault Refusal :=
  match i with
  | .doorbell id write offset data => Sys2Proof.Machine.execDoorbell id write offset data s
  | .contextLoad ctx victim => Sys2Proof.Machine.execContextLoad ctx victim s
  | .formeHeaderFetched ctx => Sys2Proof.Machine.execFormeHeaderFetched ctx s
  | .itemAccepted ctx => Sys2Proof.Machine.execItemAccepted ctx s
  | .burstIssue cycle => Sys2Proof.Machine.execBurstIssue cycle s
  | .nop ctx => Sys2Proof.Machine.execNop ctx s
  | .move ctx => Sys2Proof.Machine.execMove ctx s
  | .fill ctx => Sys2Proof.Machine.execFill ctx s
  | .proof ctx => Sys2Proof.Machine.execProof ctx s
  | .sift ctx => Sys2Proof.Machine.execSift ctx s
  | .decode ctx => Sys2Proof.Machine.execDecode ctx s
  | .part ctx => Sys2Proof.Machine.execPart ctx s
  | .tally ctx => Sys2Proof.Machine.execTally ctx s
  | .gather ctx => Sys2Proof.Machine.execGather ctx s
  | .scatter ctx => Sys2Proof.Machine.execScatter ctx s
  | .loop ctx => Sys2Proof.Machine.execLoop ctx s
  | .endloop ctx => Sys2Proof.Machine.execEndloop ctx s
  | .wait ctx => Sys2Proof.Machine.execWait ctx s
  | .waitTimeout ctx => Sys2Proof.Machine.execWaitTimeout ctx s
  | .signalCounterAdd ctx => Sys2Proof.Machine.execSignalCounterAdd ctx s
  | .signalEvent ctx => Sys2Proof.Machine.execSignalEvent ctx s
  | .signalStatusWord ctx => Sys2Proof.Machine.execSignalStatusWord ctx s
  | .counterUpdate ctx => Sys2Proof.Machine.execCounterUpdate ctx s
  | .ruleStream ctx => Sys2Proof.Machine.execRuleStream ctx s
  | .ruleGroup ctx => Sys2Proof.Machine.execRuleGroup ctx s
  | .ruleDevice ctx => Sys2Proof.Machine.execRuleDevice ctx s
  | .ruleFabric ctx => Sys2Proof.Machine.execRuleFabric ctx s
  | .link ctx => Sys2Proof.Machine.execLink ctx s
  | .push ctx => Sys2Proof.Machine.execPush ctx s
  | .popReturn ctx => Sys2Proof.Machine.execPopReturn ctx s
  | .popWait ctx => Sys2Proof.Machine.execPopWait ctx s
  | .popTimeout ctx => Sys2Proof.Machine.execPopTimeout ctx s
  | .endOp ctx => Sys2Proof.Machine.execEndOp ctx s
  | .opComplete ctx => Sys2Proof.Machine.execOpComplete ctx s
  | .itemEnd ctx => Sys2Proof.Machine.execItemEnd ctx s
  | .readDataReturn port tag err => Sys2Proof.Machine.execReadDataReturn port tag err s
  | .writeResponse port tag err applied => Sys2Proof.Machine.execWriteResponse port tag err applied s
  | .accessTimeout port write tag applied => Sys2Proof.Machine.execAccessTimeout port write tag applied s
  | .memHoldAssert port => Sys2Proof.Machine.execMemHoldAssert port s
  | .memHoldRelease port => Sys2Proof.Machine.execMemHoldRelease port s
  | .memHoldLong port => Sys2Proof.Machine.execMemHoldLong port s
  | .throttleAssert port => Sys2Proof.Machine.execThrottleAssert port s
  | .throttleDeassert port => Sys2Proof.Machine.execThrottleDeassert port s
  | .domainDownRequest port => Sys2Proof.Machine.execDomainDownRequest port s
  | .domainDown port => Sys2Proof.Machine.execDomainDown port s
  | .domainReturn port => Sys2Proof.Machine.execDomainReturn port s
  | .domainLimit ctx => Sys2Proof.Machine.execDomainLimit ctx s
  | .arbitrationRound port write cycle tags => Sys2Proof.Machine.execArbitrationRound port write cycle tags s
  | .preemptionRound port write cycle tags => Sys2Proof.Machine.execPreemptionRound port write cycle tags s
  | .quotaWindowStart port => Sys2Proof.Machine.execQuotaWindowStart port s
  | .poolPiece which => Sys2Proof.Machine.execPoolPiece which s
  | .poolSeal which => Sys2Proof.Machine.execPoolSeal which s
  | .galleyRebuild galley => Sys2Proof.Machine.execGalleyRebuild galley s
  | .poolWaitExpiry ctx => Sys2Proof.Machine.execPoolWaitExpiry ctx s
  | .room galley => Sys2Proof.Machine.execRoom galley s
  | .journalReclaim => Sys2Proof.Machine.execJournalReclaim s
  | .journalWriteRetry => Sys2Proof.Machine.execJournalWriteRetry s
  | .acceptWordRetry ctx => Sys2Proof.Machine.execAcceptWordRetry ctx s
  | .reexecutionScan => Sys2Proof.Machine.execReexecutionScan s
  | .twinPoint src point => Sys2Proof.Machine.execTwinPoint src point s
  | .twinAckTimeout => Sys2Proof.Machine.execTwinAckTimeout s
  | .twinLossLimit => Sys2Proof.Machine.execTwinLossLimit s
  | .twinEntryLimit => Sys2Proof.Machine.execTwinEntryLimit s
  | .twinHello src tag epoch records => Sys2Proof.Machine.execTwinHello src tag epoch records s
  | .twinReady src ready shadowValid point => Sys2Proof.Machine.execTwinReady src ready shadowValid point s
  | .twinShip src tag tail truncate records => Sys2Proof.Machine.execTwinShip src tag tail truncate records s
  | .deviceReset straps => Sys2Proof.Machine.execDeviceReset straps s
  | .recover => Sys2Proof.Machine.execRecover s
  | .drainEnd => Sys2Proof.Machine.execDrainEnd s
  | .surveyEnd failed => Sys2Proof.Machine.execSurveyEnd failed s
  | .haltComplete ctx => Sys2Proof.Machine.execHaltComplete ctx s
  | .pauseComplete ctx => Sys2Proof.Machine.execPauseComplete ctx s
  | .abortComplete ctx => Sys2Proof.Machine.execAbortComplete ctx s
  | .malturFrame route bytes => Sys2Proof.Machine.execMalturFrame route bytes s
  | .read => Sys2Proof.Machine.execRead s
  | .write => Sys2Proof.Machine.execWrite s
  | .segRead => Sys2Proof.Machine.execSegRead s
  | .segWrite => Sys2Proof.Machine.execSegWrite s
  | .commit => Sys2Proof.Machine.execCommit s
  | .discard => Sys2Proof.Machine.execDiscard s
  | .notify event => Sys2Proof.Machine.execNotify event s
  | .objectWrite => Sys2Proof.Machine.execObjectWrite s
  | .modeWriteHalt => Sys2Proof.Machine.execModeWriteHalt s
  | .modeWriteConfig => Sys2Proof.Machine.execModeWriteConfig s
  | .modeWriteFlow => Sys2Proof.Machine.execModeWriteFlow s
  | .modeWriteKeep => Sys2Proof.Machine.execModeWriteKeep s
  | .modeWriteTwin => Sys2Proof.Machine.execModeWriteTwin s
  | .modeWriteDrain => Sys2Proof.Machine.execModeWriteDrain s
  | .modeWriteRecover => Sys2Proof.Machine.execModeWriteRecover s
  | .modeWriteSurvey => Sys2Proof.Machine.execModeWriteSurvey s
  | .drainTargetWrite => Sys2Proof.Machine.execDrainTargetWrite s
  | .galleyCreate => Sys2Proof.Machine.execGalleyCreate s
  | .galleyFlush => Sys2Proof.Machine.execGalleyFlush s
  | .galleyDelete => Sys2Proof.Machine.execGalleyDelete s
  | .channelPause => Sys2Proof.Machine.execChannelPause s
  | .channelResume => Sys2Proof.Machine.execChannelResume s
  | .channelAbort => Sys2Proof.Machine.execChannelAbort s
  | .contextOpen => Sys2Proof.Machine.execContextOpen s
  | .contextClose => Sys2Proof.Machine.execContextClose s
  | .contextFieldWrite => Sys2Proof.Machine.execContextFieldWrite s
  | .format => Sys2Proof.Machine.execFormat s
  | .formatDiscard => Sys2Proof.Machine.execFormatDiscard s
  | .takeoverFreeze => Sys2Proof.Machine.execTakeoverFreeze s
  | .takeoverEnd => Sys2Proof.Machine.execTakeoverEnd s
  | .renumber => Sys2Proof.Machine.execRenumber s
  | .typeCaseCommit => Sys2Proof.Machine.execTypeCaseCommit s
  | .counterClear => Sys2Proof.Machine.execCounterClear s
  | .islandReset => Sys2Proof.Machine.execIslandReset s
  | .islandStateRead => Sys2Proof.Machine.execIslandStateRead s
  | .linkCtrlWrite => Sys2Proof.Machine.execLinkCtrlWrite s
  | .retire => Sys2Proof.Machine.execRetire s
  | .test => Sys2Proof.Machine.execTest s
  | .returnIsland => Sys2Proof.Machine.execReturnIsland s
  | .testEnd island passed => Sys2Proof.Machine.execTestEnd island passed s
  | .keyWrite => Sys2Proof.Machine.execKeyWrite s
  | .proposedWrite => Sys2Proof.Machine.execProposedWrite s
  | .nonceRead => Sys2Proof.Machine.execNonceRead s
  | .tagWrite => Sys2Proof.Machine.execTagWrite s
  | .protectCommit => Sys2Proof.Machine.execProtectCommit s
  | .waitSnapshotRead => Sys2Proof.Machine.execWaitSnapshotRead s
  | .legacyShadowWrite via slot reg data => Sys2Proof.Machine.execLegacyShadowWrite via slot reg data s
  | .legacyStart via slot data => Sys2Proof.Machine.execLegacyStart via slot data s
  | .legacyAbort via slot data => Sys2Proof.Machine.execLegacyAbort via slot data s
  | .legacyRunEnd slot => Sys2Proof.Machine.execLegacyRunEnd slot s
  | .linkLock link => Sys2Proof.Machine.execLinkLock link s
  | .linkLockLoss link => Sys2Proof.Machine.execLinkLockLoss link s
  | .linkBlock link bytes => Sys2Proof.Machine.execLinkBlock link bytes s
  | .harebellSend link => Sys2Proof.Machine.execHarebellSend link s
  | .harebell link beacon => Sys2Proof.Machine.execHarebell link beacon s
  | .beaconTimeout link => Sys2Proof.Machine.execBeaconTimeout link s
  | .advertSend => Sys2Proof.Machine.execAdvertSend s
  | .advert link adv => Sys2Proof.Machine.execAdvert link adv s
  | .routeRecompute => Sys2Proof.Machine.execRouteRecompute s
  | .assignRequest link serial preferred => Sys2Proof.Machine.execAssignRequest link serial preferred s
  | .assignAnswer link serial node state => Sys2Proof.Machine.execAssignAnswer link serial node state s
  | .assignRetry => Sys2Proof.Machine.execAssignRetry s
  | .idHoldExpiry serial => Sys2Proof.Machine.execIdHoldExpiry serial s
  | .frameForward link frame => Sys2Proof.Machine.execFrameForward link frame s
  | .escapeWait link frame => Sys2Proof.Machine.execEscapeWait link frame s
  | .rdReq frame => Sys2Proof.Machine.execRdReq frame s
  | .rdData frame => Sys2Proof.Machine.execRdData frame s
  | .wrReq frame => Sys2Proof.Machine.execWrReq frame s
  | .wrResp frame => Sys2Proof.Machine.execWrResp frame s
  | .piece frame => Sys2Proof.Machine.execPiece frame s
  | .pieceAns frame => Sys2Proof.Machine.execPieceAns frame s
  | .seal frame => Sys2Proof.Machine.execSeal frame s
  | .sealAns frame => Sys2Proof.Machine.execSealAns frame s
  | .noticeRelease frame => Sys2Proof.Machine.execNoticeRelease frame s
  | .noticeDiscard frame => Sys2Proof.Machine.execNoticeDiscard frame s
  | .noticeRoom frame => Sys2Proof.Machine.execNoticeRoom frame s
  | .noticeAns frame => Sys2Proof.Machine.execNoticeAns frame s
  | .ruleMark frame => Sys2Proof.Machine.execRuleMark frame s
  | .ruleAns frame => Sys2Proof.Machine.execRuleAns frame s
  | .busy frame => Sys2Proof.Machine.execBusy frame s
  | .busySend src tag => Sys2Proof.Machine.execBusySend src tag s
  | .remoteTimeout tag newTag => Sys2Proof.Machine.execRemoteTimeout tag newTag s
  | .routeWait ctx => Sys2Proof.Machine.execRouteWait ctx s
  | .islandResetAssert island => Sys2Proof.Machine.execIslandResetAssert island s
  | .islandResetRelease pins => Sys2Proof.Machine.execIslandResetRelease pins s
  | .clockLost island => Sys2Proof.Machine.execClockLost island s
  | .islandFault island => Sys2Proof.Machine.execIslandFault island s
  | .powerDownRequest island => Sys2Proof.Machine.execPowerDownRequest island s
  | .powerDownAck island => Sys2Proof.Machine.execPowerDownAck island s
  | .powerDownRelease pins => Sys2Proof.Machine.execPowerDownRelease pins s
  | .eventRound source wire => Sys2Proof.Machine.execEventRound source wire s
  | .wakeLead stash => Sys2Proof.Machine.execWakeLead stash s
  | .wakeIdle stash => Sys2Proof.Machine.execWakeIdle stash s
  | .stashTileTaken stash => Sys2Proof.Machine.execStashTileTaken stash s
  | .stashTileRefused stash => Sys2Proof.Machine.execStashTileRefused stash s
  | .stashFallback stash => Sys2Proof.Machine.execStashFallback stash s
  | .testWrapRequest island => Sys2Proof.Machine.execTestWrapRequest island s
  | .scrub offset correctable => Sys2Proof.Machine.execScrub offset correctable s
  | .clockReturn island => Sys2Proof.Machine.execClockReturn island s
  | .evtPulse wire => Sys2Proof.Machine.execEvtPulse wire s
  | .doorbellResponseTaken id => Sys2Proof.Machine.execDoorbellResponseTaken id s
  | .testAccessReset => Sys2Proof.Machine.execTestAccessReset s

end Sys2Proof.Machine
end

