-- ==== Sys2Proof/Machine/Step.lean ====
section
/-! DEFINITION. The machine's step: the command at the front of the queue. -/
namespace Sys2Proof.Machine

/-- One step: exec of the command at the front of the queue on the state with the rest; an empty queue leaves the
block as it stands (assumption log 3). -/
def step (s : State) : Host.Outcome State Fault Refusal :=
  match s.pending with
  | [] => .next s
  | c :: rest => exec c { s with pending := rest }

/-- The command a table word spells, put at the front of the queue. -/
def State.withFetchWord (s : State) (nbits w : Nat) : State :=
  match Sys2Proof.decodeTableWord nbits w with
  | some c => { s with pending := c :: s.pending }
  | none => s

end Sys2Proof.Machine
end

