-- ==== Sys2Proof/Safety.lean ====
section
/-! DEFINITION. What counts as a safe state: the memory's canonical form, which every step keeps. -/
namespace Sys2Proof.Machine

/-- The memory list is canonical: addresses strictly rise and no entry holds the byte an unlisted address reads as. -/
def State.Safe (s : State) : Prop := memWf s.mem

end Sys2Proof.Machine
end

