-- ==== Sys2Proof/Certificates/Slice0/Obligations.lean ====
section
/-! DEFINITION. The statements for the provers, in the order of the command table's families. -/

open Sys2Proof Sys2Proof.Machine

/-! ## The machine -/

/-- A step takes the command at the front of the queue and runs exec on the state with the queue's rest. -/
def Obligations.StepRunsTheFrontCommand : Prop :=
  ∀ (c : Instr) (rest : List Instr) (s : State),
    step { s with pending := c :: rest } = exec c { s with pending := rest }

/-- On an empty queue the block idles (the model's choice, assumption log 3). -/
def Sys2Proof.Claims.StepIdlesOnAnEmptyQueue : Prop :=
  ∀ s : State, s.pending = [] → step s = .next s

/-- No command changes the queue of the waiting commands (the model's shape, assumption log 3). -/
def Obligations.NoCommandTouchesTheQueue : Prop :=
  ∀ (c : Instr) (s t : State), exec c s = .next t → t.pending = s.pending

/-- Every command but the loss of CLK_CTL answers a next state: no data ends a run. -/
def Sys2Proof.Claims.EveryCommandAnswersANextState : Prop :=
  ∀ (c : Instr) (s : State), c ≠ .clockLost 0 → ∃ t, exec c s = .next t

/-- The loss of CLK_CTL is the loss of the device (R339): the one stop of the model. -/
def Sys2Proof.Claims.LossOfTheControlClockStopsTheDevice : Prop :=
  ∀ s : State, exec (.clockLost 0) s = .fault .deviceLost

/-- Memory keeps its canonical form over every step (the model's form of memory, assumption log 1). -/
def Obligations.EveryStepKeepsTheMemoryForm : Prop :=
  ∀ s t : State, memWf s.mem → step s = .next t → memWf t.mem

/-- The memory after reset has the canonical form. -/
def Sys2Proof.Claims.ResetMemoryHasTheForm : Prop := memWf State.reset.mem

/-- The straps hold what DEV_RST_N's release sampled: only DEVICE_RESET writes them (R432). -/
def Obligations.StrapsChangeOnlyAtDeviceReset : Prop :=
  ∀ (c : Instr) (s t : State), (∀ x, c ≠ .deviceReset x) → exec c s = .next t → t.straps = s.straps

def Obligations.EveryCommandAnswersAndIdleStepsStay : Prop :=
  Claims.StepIdlesOnAnEmptyQueue ∧ Claims.EveryCommandAnswersANextState ∧ Claims.LossOfTheControlClockStopsTheDevice

/-! ## The doorbell port and acceptance -/

/-- The response to a doorbell of context c, with no refusal (R43, R423). -/
def Sys2Proof.Claims.answer (s : State) (id c outcome : Nat) : DbResponse :=
  { id := id, ctx := some c, data := doorbellWord c 0 outcome (s.ctx c).accepted, err := false }

/-- DOORBELL at offset 0, with no earlier range undecided and no CLOSE waiting: the first case of R72 that applies answers
it, and otherwise the range up to P is announced. One of an open context outside the active context cache waits, its
response with it, until the context is loaded (R17, R25). -/
def Obligations.DoorbellAnswersByTheFirstCase : Prop :=
  ∀ (id offset data : Nat) (s : State), s.portTakes id = true → offset / 8 * 8 % 2 ^ 17 = 0 →
    (s.ctx (bitsOf data 0 18)).closing = false → (s.ctx (bitsOf data 0 18)).bells = [] →
    ∃ t, exec (.doorbell id true offset data) s = .next t ∧ t.mem = s.mem ∧
      (let c := bitsOf data 0 18
       let p := BitVec.ofNat 32 (bitsOf data 32 32)
       let x := s.ctx c
       let outcome (n : Nat) : Prop := t.sched.dbOut = s.sched.dbOut ++ [Claims.answer s id c n]
       if x.state = .closed then outcome 2 ∧ t.ctx c = x
       else if x.cached = false then
         t.ctx c = { x with early := x.early ++ [(id, p)] } ∧ t.sched.dbOut = s.sched.dbOut
       else if ¬ ((p - x.consumer).toNat ≤ x.f.ringSize ∧ (p - x.producer).toNat ≤ x.f.ringSize) then
         outcome 0 ∧ t.ctx c = x ∧
           Tab.get zeroTab t.ctl.eventCount 2 = satAdd u32Max (Tab.get zeroTab s.ctl.eventCount 2) 1
       else if s.ctl.mode.traffic = false then outcome 1 ∧ (t.ctx c).producer = x.consumer
       else if x.headerHalt = true then outcome 4 ∧ t.ctx c = x
       else if p = x.producer then outcome 0 ∧ t.ctx c = x
       else if x.exhausted = true then outcome 3 ∧ (t.ctx c).producer = x.consumer
       else x.header ≠ .none →
         t.ctx c = { x with producer := p, bells := [{ id := id, upto := p, refused := 0 }] } ∧
           t.sched.dbOut = s.sched.dbOut)

/-- The other offsets of the doorbell port below the window, and a read of the doorbell, change nothing and answer data 0
(R421). -/
def Sys2Proof.Claims.OtherDoorbellPortOffsetsChangeNothing : Prop :=
  ∀ (id offset data : Nat) (write : Bool) (s : State), s.portTakes id = true → offset / 8 * 8 % 2 ^ 17 < 0x10000 →
    (offset / 8 * 8 % 2 ^ 17 ≠ 0 ∨ write = false) →
    exec (.doorbell id write offset data) s =
      .next { s with sched := { s.sched with
        dbOutstanding := s.sched.dbOutstanding ++ [id]
        dbOut := s.sched.dbOut ++
          [{ id := id, data := 0, err := decide (offset / 8 * 8 % 2 ^ 17 ≠ 0) }] } }

/-- DOORBELL_RESPONSE_TAKEN: the response in front of its context leaves, and its identifier is free again (R420, R424). -/
def Sys2Proof.Claims.DoorbellResponseLeavesInOrder : Prop :=
  ∀ (s : State) (r : DbResponse) (l : List DbResponse), s.sched.dbOut = r :: l →
    ∃ t, exec (.doorbellResponseTaken r.id) s = .next t ∧
      t.sched.dbOut = l.filter (fun q => decide (q.id ≠ r.id)) ∧ ¬ r.id ∈ t.sched.dbOutstanding ∧
      (∀ k, k ≠ r.id → (k ∈ t.sched.dbOutstanding ↔ k ∈ s.sched.dbOutstanding)) ∧
      t = { s with sched := t.sched } ∧
      t.sched = { s.sched with dbOut := t.sched.dbOut, dbOutstanding := t.sched.dbOutstanding }

/-- CONTEXT_LOAD: with room in the active context cache an open context enters it, NEXT starts, and the doorbells that waited
for it are judged; with no room an idle victim is given up for it, and one that is not idle never is (R25); while CTX's clock is absent
nothing is read (R347; assumption log 93). With no doorbell, item or
announced slot nothing else changes. -/
def Sys2Proof.Claims.ContextLoadEvictsOnlyAnIdleContext : Prop :=
  ∀ (c victim : Nat) (s : State), (s.ctx c).state ≠ .closed → (s.ctx c).cached = false → c ≠ victim →
    (s.unitWaits ctxIsland = true → exec (.contextLoad c victim) s = .next s) ∧
    (s.unitWaits ctxIsland = false →
    (let quiet := (s.ctx c).early = [] ∧ (s.ctx c).items = [] ∧ (s.ctx c).producer = BitVec.ofNat 32 (s.nextSlot c)
     (s.cachedCount < 4096 →
       ∃ t, exec (.contextLoad c victim) s = .next t ∧ t.mem = s.mem ∧ (t.ctx c).cached = true ∧ (t.ctx c).next256 = 0 ∧
         (t.ctx c).early = [] ∧ (quiet → t = s.setCtx c { s.ctx c with cached := true, next256 := 0 })) ∧
     (¬ s.cachedCount < 4096 → (s.ctx victim).cached = true → s.cacheIdle victim = true →
       ∃ t, exec (.contextLoad c victim) s = .next t ∧ t.mem = s.mem ∧ (t.ctx c).cached = true ∧ (t.ctx c).next256 = 0 ∧
         (t.ctx c).early = [] ∧ (t.ctx victim).cached = false ∧
         (quiet → t = (s.setCtx victim { s.ctx victim with cached := false }).setCtx c { s.ctx c with cached := true, next256 := 0 }))) ∧
    (¬ s.cachedCount < 4096 → s.cacheIdle victim = false → exec (.contextLoad c victim) s = .next s))

/-- The state of a header check of R77 at the next announced slot of context c in the cache: the slot's header is in, and no
earlier item stands before it. -/
def Sys2Proof.Claims.headerAt (s : State) (c : Nat) : Prop :=
  (s.ctx c).cached = true ∧ (s.ctx c).header = .got ∧ (s.ctx c).headerFault = none ∧ (s.ctx c).accepting = [] ∧ (s.ctx c).items = [] ∧
    (s.ctx c).producer ≠ (s.ctx c).consumer

/-- The answers that the undecided doorbells of context c take with an outcome; one that announced nothing is DECIDED (R43, R72,
R423). -/
def Sys2Proof.Claims.answers (s : State) (c outcome : Nat) : List DbResponse :=
  (s.ctx c).bells.map fun b =>
    { id := b.id, ctx := some c, err := false
      data := doorbellWord c b.refused (if b.empty then 0 else outcome) (s.ctx c).accepted }

/-- FORME_HEADER_FETCHED: the first failing check of R77 decides, and an item that passes them all goes on to acceptance. -/
def Sys2Proof.Claims.FormeHeaderChecksDecideInOrder : Prop :=
  ∀ (c : Nat) (s : State), Claims.headerAt s c →
    ∃ t, exec (.formeHeaderFetched c) s = .next t ∧ t.mem = s.mem ∧
      (let x := s.ctx c
       let a := slotAddr x.f x.consumer.toNat
       let n := (s.byteAt (a + 1)).toNat
       let seq := s.numAt (a + 8) 8
       if (s.firstDenied x.f.windowSet rightRead x.f.ringBase (x.f.ringSize * x.f.slotSize)).isSome then
         (t.ctx c).state = .halted ∧ (t.ctx c).headerHalt = true ∧ (t.ctx c).record.status = 0x13 ∧
           t.sched.dbOut = s.sched.dbOut ++ Claims.answers s c 4
       else if (s.byteAt a).toNat ≠ 1 ∨ x.f.slotSize < 0x40 + 0x20 * (if n = 0 then 256 else n) then
         (t.ctx c).state = .halted ∧ (t.ctx c).headerHalt = true ∧ (t.ctx c).record.status = 0x14 ∧
           t.sched.dbOut = s.sched.dbOut ++ Claims.answers s c 4
       else if seq ≤ x.accepted then
         (t.ctx c).refused = satAdd u16Max x.refused 1 ∧ (t.ctx c).accepted = x.accepted ∧ (t.ctx c).items = []
       else if seq = 2 ^ 64 - 1 then
         (t.ctx c).exhausted = true ∧ t.sched.dbOut = s.sched.dbOut ++ Claims.answers s c 3
       else if s.ctl.mode.traffic = false then
         (t.ctx c).producer = x.consumer ∧ t.sched.dbOut = s.sched.dbOut ++ Claims.answers s c 1
       else s.journaled = false → x.producer = x.consumer + 1 →
         (t.ctx c).accepting = [{ seq := seq, slotIndex := x.consumer.toNat % 2 ^ 32, slotAddr := a,
                                   flags := s.numAt (a + 2) 2, jpos := none }])

/-- In KEEP and TWIN an item that passes R77 is not accepted before the durability of R33: its ACCEPT record is issued at
the journal's next position and the item waits for it. -/
def Sys2Proof.Claims.JournaledAcceptanceIssuesARecord : Prop :=
  ∀ (c : Nat) (s : State), Claims.headerAt s c → s.journaled = true → s.ctl.mode.traffic = true → admits s .accept = true →
    (s.ctx c).producer = (s.ctx c).consumer + 1 →
    (let x := s.ctx c
     let a := slotAddr x.f x.consumer.toNat
     let n := (s.byteAt (a + 1)).toNat
     s.firstDenied x.f.windowSet rightRead x.f.ringBase (x.f.ringSize * x.f.slotSize) = none ∧
       (s.byteAt a).toNat = 1 ∧ 0x40 + 0x20 * (if n = 0 then 256 else n) ≤ x.f.slotSize ∧
       x.accepted < s.numAt (a + 8) 8 ∧ s.numAt (a + 8) 8 ≠ 2 ^ 64 - 1) →
    ∃ t, exec (.formeHeaderFetched c) s = .next t ∧ (t.ctx c).accepting.map (·.jpos) = [some s.jrn.head] ∧
      (t.ctx c).accepted = (s.ctx c).accepted ∧ t.jrn.head = s.jrn.head + 1 ∧
      (t.jrn.inFlight.getLast?.map fun r => (r.kind, r.pos, r.epoch, r.ctx)) = some (.accept, s.jrn.head, s.jrn.epoch, c)

/-- ITEM_ACCEPTED: an acceptance of a context in the cache is published when its durability is reached and no acceptance at a lower
position waits, and only then (R32, R33, R269). -/
def Sys2Proof.Claims.ItemIsPublishedOnceDurable : Prop :=
  ∀ (c : Nat) (s : State) (e : Accepting) (r : List Accepting), (s.ctx c).accepting = e :: r →
    s.ctl.mode.traffic = true → (s.ctx c).cached = true →
    (s.acceptable e = true → s.publishTurn e = true → ∃ t, exec (.itemAccepted c) s = .next t ∧ t.mem = s.mem ∧ (t.ctx c).accepted = e.seq ∧
      (t.ctx c).consumer = (s.ctx c).consumer + 1 ∧
      (t.ctx c).items.map (·.seq) = (s.ctx c).items.map (·.seq) ++ [e.seq]) ∧
    ((s.acceptable e = false ∨ s.publishTurn e = false) → exec (.itemAccepted c) s = .next s)

def Obligations.DoorbellPortAndContextCache : Prop :=
  Claims.OtherDoorbellPortOffsetsChangeNothing ∧
    Claims.DoorbellResponseLeavesInOrder ∧
    Claims.ContextLoadEvictsOnlyAnIdleContext

def Obligations.HeaderChecksAndAcceptance : Prop :=
  Claims.FormeHeaderChecksDecideInOrder ∧ Claims.JournaledAcceptanceIssuesARecord ∧ Claims.ItemIsPublishedOnceDurable

/-! ## The data ops and their bursts -/

/-- The command of the data op of each opcode, 01h to 09h (R86). -/
def Sys2Proof.Claims.dataCommand (code c : Nat) : Option Instr :=
  match code with
  | 1 => some (.move c)
  | 2 => some (.fill c)
  | 3 => some (.proof c)
  | 4 => some (.sift c)
  | 5 => some (.decode c)
  | 6 => some (.part c)
  | 7 => some (.tally c)
  | 8 => some (.gather c)
  | 9 => some (.scatter c)
  | _ => none

/-- MOVE, FILL, PROOF, SIFT, DECODE, PART, TALLY, GATHER and SCATTER in front of a running channel, their operand structures
read: an undefined field is BAD_OP, a failing check is its status, push ordinals that would pass FFFF_FFFFh are BAD_OP, no work
completes at once, and otherwise the op begins with its stream's total (R116, R124, R129, R201). -/
def Obligations.DataOpsBeginAfterTheirChecks : Prop :=
  ∀ (code c : Nat) (i : Instr) (s : State) (it : Item) (b : List Byte),
    Claims.dataCommand code c = some i → s.front c = some (it, b) → opcodeOf b = code → it.run = none →
    (dataFieldsOk b = false → exec i s = .next (s.nextFree.fail c { status := .badOp, detail := s.opDetail it })) ∧
    (dataFieldsOk b = true → (s.structs b)[it.structIdx]? = none →
      (∀ st d, s.decodeOp b (it.advance true) (it.advance false) = .error (st, d) →
        exec i s = .next (s.nextFree.fail c { status := st, detail := d })) ∧
      (∀ work, s.decodeOp b (it.advance true) (it.advance false) = .ok work → 2 ^ 32 < it.pushOrd + s.ordsTaken b →
        exec i s = .next (s.nextFree.fail c { status := .badOp, detail := s.opDetail it })) ∧
      (s.decodeOp b (it.advance true) (it.advance false) = .ok none → it.pushOrd + s.ordsTaken b ≤ 2 ^ 32 →
        exec i s = .next (s.modItem c fun x => { x with opDone := true })) ∧
      (∀ op total, s.decodeOp b (it.advance true) (it.advance false) = .ok (some (op, total)) →
        it.pushOrd + s.ordsTaken b ≤ 2 ^ 32 → s.partFault op = none →
        ∃ t, exec i s = .next t ∧ t.mem = s.mem ∧ t.sched.nextSerial = s.sched.nextSerial + 1 ∧
          (t.item c).bind (·.run) =
            some { op := op, serial := s.sched.nextSerial, total := total, ordBase := it.pushOrd }))

/-- An op with no result block, PUSH and PART apart, whose every segment is complete ends: it has delivered its bytes
and moved some (R80, R81): MOVE, FILL, DECODE, GATHER, SCATTER. -/
def Sys2Proof.Claims.MappedOpsEndWithTheirDataWritten : Prop :=
  ∀ (code c : Nat) (i : Instr) (s : State) (it : Item) (b : List Byte) (r : OpRun),
    Claims.dataCommand code c = some i → c < 262144 → s.front c = some (it, b) → opcodeOf b = code → it.run = some r →
    r.op.dest.isSome = true → r.segs = [] → r.phase = .data → r.total ≤ r.cut →
    ∃ t, exec i s = .next t ∧ t.mem = s.mem ∧ t.ports = s.ports ∧
      (t.item c).map (fun x => (x.opDone, x.moved, x.delivered)) =
        some (true, true, satAdd (2 ^ 64 - 1) it.delivered r.counted)

/-- PROOF, SIFT, TALLY and PART, their data complete (for PART its seals answered), have their result block as the channel's next
burst, and nothing is written before SCHED issues it; the lane that BURST_ISSUE picks for it presents the block as one write
under the op's checks, and the op ends (R138, R145, R205, R213, R220). -/
def Sys2Proof.Claims.ResultOpsEndWithTheirResultWritten : Prop :=
  (∀ (code c : Nat) (i : Instr) (s : State) (it : Item) (b : List Byte) (r : OpRun) (a : Nat),
    Claims.dataCommand code c = some i → c < 262144 → s.front c = some (it, b) → opcodeOf b = code → it.run = some r →
    r.op.result = some a → r.segs = [] → r.total ≤ r.cut →
    ((r.phase = .data ∧ code ≠ 6 ∧ ¬ ∃ n x d q, r.op = .part n x d q) ∨ (r.phase = .sealing ∧ r.seals = [])) →
    ∃ t, exec i s = .next t ∧ t.mem = s.mem ∧ t.ports = s.ports ∧ (t.run c).map (·.phase) = some .result ∧
      (t.item c).map (·.opDone) = some false) ∧
  (∀ (cycle c lane a : Nat) (s : State) (r : OpRun), c < 262144 → s.pickChannel cycle = some c →
    s.nextBurst c = some (.result r a) → s.pickLane false [] = some lane →
    s.obstacle (s.setOf c) true (lineSide a r.resultBytes.length) 1 0 r.resultBytes.length = none →
    ∃ t, exec (.burstIssue cycle) s = .next t ∧ t.mem = s.mem ∧
      t.ports = (s.presentWrites { owner := .result c r.serial, requester := laneReq lane, cls := s.classOf c, locked := false }
        (lineSide a r.resultBytes.length) 0 r.resultBytes).ports ∧
      (t.item c).map (·.opDone) = some true)

/-- Byte k of a FILL's stream is pattern byte (k mod FILL_LEN) (R136). -/
def Sys2Proof.Claims.FillRepeatsItsPattern : Prop :=
  ∀ (bytes : List Byte) (lo n i : Nat), i < n →
    (fillBytes bytes lo n)[i]? = some (bytes.getD ((lo + i) % bytes.length) 0)

/-- A selected row adds to its TALLY group: COUNT and SUM, MIN and MAX as bounds of the values seen (R212). -/
def Sys2Proof.Claims.TallyAddsARowToItsGroup : Prop :=
  ∀ (t : TallyDesc) (a : Acc) (row : List Byte),
    (let v := widened t.signed t.valWidth (fieldAt row t.valOff t.valWidth)
     (t.add a row).count = a.count + 1 ∧ (t.add a row).sum = a.sum + v ∧
       (∃ m, (t.add a row).min = some m ∧ m ≤ v ∧ (∀ k, a.min = some k → m ≤ k) ∧ (m = v ∨ a.min = some m)) ∧
       (∃ m, (t.add a row).max = some m ∧ v ≤ m ∧ (∀ k, a.max = some k → k ≤ m) ∧ (m = v ∨ a.max = some m)))

/-- A PART row goes to one of 2^K destinations, and rows with equal keys to the same (R199). -/
def Sys2Proof.Claims.PartSendsEqualKeysTogether : Prop :=
  ∀ (d : PartDesc) (x y : List Byte), d.k ≤ 12 →
    d.dest x < 2 ^ d.k ∧
      ((x.drop d.keyOff).take d.keyLen = (y.drop d.keyOff).take d.keyLen → d.dest x = d.dest y)

/-- BURST_ISSUE: the channel that R220 takes issues its next segment on the lane that R220 picks, one that no other segment of
the op holds (R131): the stream is cut behind it, the op's serial is claimed, and NEXT of port leading rises by b x 256 / SHARE
cycles (R222), rounded down to 1/256 cycle (the model's choice, assumption log 96). -/
def Obligations.BurstIssueTakesTheNextSegment : Prop :=
  ∀ (cycle c lane : Nat) (s : State) (it : Item) (r : OpRun) (g : Segment), c < 262144 → s.pickChannel cycle = some c →
    s.nextBurst c = some (.segment r g) → s.pickLane r.op.locked r.lanesHeld = some lane → s.item c = some it → it.run = some r →
    r.segs = [] →
    s.segObstacle (s.setOf c) r.op g.lo g.hi = none →
    ∃ t, exec (.burstIssue cycle) s = .next t ∧ t.mem = s.mem ∧
      (t.item c).map (·.opSerial) = some (some r.serial) ∧
      (t.run c).map (fun q => (q.cut, q.segs.map fun x => (x.lo, x.hi, x.lane))) = some (g.hi, [(g.lo, g.hi, lane)]) ∧
      (t.ctx c).next256 = (if (s.ctx c).f.share = 0 then (s.ctx c).next256 else
        max (s.ctx c).next256 (cycle * 256) + segBeats r.op g.lo g.hi * 65536 / (s.ctx c).f.share)

def Obligations.DataOpsEndWithTheirWorkWritten : Prop :=
  Claims.MappedOpsEndWithTheirDataWritten ∧ Claims.ResultOpsEndWithTheirResultWritten

def Obligations.DataValuesFollowTheirRules : Prop :=
  Claims.FillRepeatsItsPattern ∧ Claims.TallyAddsARowToItsGroup ∧ Claims.PartSendsEqualKeysTogether

/-! ## The steering ops -/

/-- NOP and END: with no loop and no packet open they are done at once; an END with one open is BAD_OP (R89, R90). -/
def Sys2Proof.Claims.NopAndEndCompleteAtOnce : Prop :=
  ∀ (c : Nat) (s : State) (it : Item) (b : List Byte), s.front c = some (it, b) →
    (opcodeOf b = 0 → exec (.nop c) s = .next (s.modItem c fun x => { x with opDone := true })) ∧
    (opcodeOf b = 0x1F → it.loops = [] → it.openPacket = none →
      exec (.endOp c) s = .next (s.modItem c fun x => { x with opDone := true })) ∧
    (opcodeOf b = 0x1F → (it.loops ≠ [] ∨ it.openPacket ≠ none) →
      exec (.endOp c) s = .next (s.nextFree.fail c { status := .badOp, detail := s.opDetail it }))

/-- LOOP opens a frame with COUNT and the two signed advances, at a depth of at most 3; ENDLOOP begins the next pass at
the op after the LOOP, or closes the frame (R91, R92, R93). -/
def Sys2Proof.Claims.LoopsOpenRepeatAndClose : Prop :=
  ∀ (c : Nat) (s : State) (it : Item) (b : List Byte), s.front c = some (it, b) →
    (opcodeOf b = 0x10 → it.loops.length < 3 → fieldAt b 4 4 ≠ 0 →
      ∃ t, exec (.loop c) s = .next t ∧ t.mem = s.mem ∧ (t.item c).map (fun x => (x.opDone, x.loops)) =
        some (true, it.loops ++ [⟨it.opIdx, fieldAt b 4 4, 0, signedOf 48 (fieldAt b 8 6), signedOf 48 (fieldAt b 14 6)⟩])) ∧
    (opcodeOf b = 0x10 → 3 ≤ it.loops.length →
      exec (.loop c) s = .next (s.nextFree.fail c { status := .badOp, detail := s.opDetail it })) ∧
    (∀ l, opcodeOf b = 0x11 → it.loops.getLast? = some l → l.pass + 1 < l.count →
      ∃ t, exec (.endloop c) s = .next t ∧ t.mem = s.mem ∧ (t.item c).map (fun x => (x.opDone, x.loops, x.nextIdx)) =
        some (true, it.loops.dropLast ++ [{ l with pass := l.pass + 1 }], some (l.opIdx + 1))) ∧
    (∀ l, opcodeOf b = 0x11 → it.loops.getLast? = some l → ¬ l.pass + 1 < l.count →
      ∃ t, exec (.endloop c) s = .next t ∧ t.mem = s.mem ∧ (t.item c).map (fun x => (x.opDone, x.loops, x.nextIdx)) =
        some (true, it.loops.dropLast, it.nextIdx)) ∧
    (opcodeOf b = 0x11 → it.loops = [] →
      exec (.endloop c) s = .next (s.nextFree.fail c { status := .badOp, detail := s.opDetail it }))

/-- LINK goes on at a block of this device aligned to 64 B and readable; the fuse stops a channel that links without
moving a byte (R95, R96). -/
def Sys2Proof.Claims.LinkGoesOnUntilItsFuse : Prop :=
  ∀ (c : Nat) (s : State) (it : Item) (b : List Byte), s.front c = some (it, b) → opcodeOf b = 0x15 →
    it.loops = [] → fieldAt b 8 8 % 64 = 0 → s.isRemote (fieldAt b 8 8) = false →
    (s.fuseLimit ≤ (s.ctx c).fuse + 1 →
      exec (.link c) s = .next (s.fail c { status := .linkLoop, detail := fieldAt b 8 8 })) ∧
    (¬ s.fuseLimit ≤ (s.ctx c).fuse + 1 →
      s.firstDenied (s.ctx c).f.windowSet rightRead (fieldAt b 8 8) 64 = none →
      ∃ t, exec (.link c) s = .next t ∧ t.mem = s.mem ∧ (t.ctx c).fuse = (s.ctx c).fuse + 1 ∧
        (t.item c).map (fun x => (x.opDone, x.nextBlock)) = some (true, some (fieldAt b 8 8)))

/-- WAIT whose counter has been read: it completes where its condition holds of the value read or of one that an increment has
given since, and otherwise the channel waits (R99, R100, R103). -/
def Sys2Proof.Claims.WaitTestsTheCounterItRead : Prop :=
  ∀ (c : Nat) (s : State) (it : Item) (b : List Byte) (k : CounterOp) (v : Nat), s.front c = some (it, b) →
    opcodeOf b = 0x12 → it.counterOp = some k → k.old = some v → bitOf (fieldAt b 6 1) 7 = false →
    (∀ cond, bitsOf (fieldAt b 6 1) 0 2 = cond → cond ≤ 1 →
      (let holds (n : Nat) : Prop := if cond = 0 then fieldAt b 8 8 ≤ n else n = fieldAt b 8 8
      ((∃ n, n ∈ v :: k.news ∧ holds n) →
        ∃ t, exec (.wait c) s = .next t ∧ t.mem = s.mem ∧ (t.item c).map (·.opDone) = some true) ∧
      (¬ (∃ n, n ∈ v :: k.news ∧ holds n) →
        ∃ t, exec (.wait c) s = .next t ∧ t.mem = s.mem ∧ (t.ctx c).state = .waiting ∧
          (t.ctx c).waitOn = some (.counter (s.ctx c).f.group (fieldAt b 4 2) (fieldAt b 8 8) cond (k.news.getLast?.getD v)))))

/-- WAIT_TIMEOUT ends a wait that has a timeout with WAIT_TIMEOUT, DETAIL the value last read (R100). -/
def Sys2Proof.Claims.WaitTimeoutHaltsTheChannel : Prop :=
  ∀ (c g n v cond last : Nat) (s : State) (it : Item), (s.ctx c).waitOn = some (.counter g n v cond last) → s.item c = some it →
    fieldAt (s.opBytes it) 0x10 4 ≠ 0 →
    ∃ t, exec (.waitTimeout c) s = .next t ∧ t.mem = s.mem ∧ (t.ctx c).waitOn = none ∧ (t.ctx c).halting = true ∧
      (t.ctx c).faults = (s.ctx c).faults ++ [{ status := .waitTimeout, detail := last }]

/-- A SIGNAL whose stream is acknowledged takes effect: COUNTER_ADD of 0 and EVENT complete at once, the EVENT posting its
wire; a STATUS_WORD in KEEP and TWIN is kept for the item's end, after its window check (R104 to R108). -/
def Sys2Proof.Claims.SignalsTakeEffectOnceTheStreamIsAcknowledged : Prop :=
  ∀ (c : Nat) (s : State) (it : Item) (b : List Byte), s.front c = some (it, b) → opcodeOf b = 0x13 →
    signalOk b = true → s.streamAcked c = true → s.held c = false →
    (fieldAt b 4 1 = 0 → fieldAt b 8 8 = 0 →
      exec (.signalCounterAdd c) s = .next (s.modItem c fun x => { x with opDone := true })) ∧
    (fieldAt b 4 1 = 1 → s.postFull schedIsland (fieldAt b 0x1A 1) = false →
      ∃ t, exec (.signalEvent c) s = .next t ∧ t.mem = s.mem ∧ (t.item c).map (·.opDone) = some true ∧
        t.postsOf schedIsland (fieldAt b 0x1A 1) = s.postsOf schedIsland (fieldAt b 0x1A 1) + 1) ∧
    (fieldAt b 4 1 = 2 → it.opSerial = none → s.journaled = true →
      s.firstDenied (s.ctx c).f.windowSet rightWrite (fieldAt b 0x10 8) 16 = none →
      ∃ t, exec (.signalStatusWord c) s = .next t ∧ t.mem = s.mem ∧ t.ports = s.ports ∧
        (t.item c).map (fun x => (x.opDone, x.words)) =
          some (true, it.words ++ [{ address := fieldAt b 0x10 8, value := fieldAt b 8 8 }]))

/-- COUNTER_ADD of a value hands SCHED a counter update; BURST_ISSUE reads its counter under the lock of the lane that serves
it (R106, R220, R233), and COUNTER_UPDATE has that lane write the sum, modulo 2^64, once the read has returned and no record of it
is wanting (R98, R277), at its memory port or, in a stash range, at the stash port (R426). -/
def Sys2Proof.Claims.CounterAddReadsThenWritesTheSum : Prop :=
  ∀ (c p : Nat) (s : State) (it : Item),
    (∀ (b : List Byte), s.front c = some (it, b) → opcodeOf b = 0x13 → signalOk b = true →
      s.streamAcked c = true → s.held c = false → fieldAt b 4 1 = 0 → fieldAt b 8 8 ≠ 0 →
      it.counterOp = none → (s.journaled = true → s.counterRecorded c it.seq it.ctrOrd = false) →
      ∃ t, exec (.signalCounterAdd c) s = .next t ∧ t.mem = s.mem ∧ t.ports = s.ports ∧
        ((t.item c).bind (·.counterOp)).map (fun k => (k.group, k.counter, k.value, k.old, k.issued)) =
          some (if bitOf (fieldAt b 5 1) 0 then fieldAt b 0x18 2 else (s.ctx c).f.group, fieldAt b 6 2, fieldAt b 8 8, none, false)) ∧
    (∀ (cycle l : Nat) (k : CounterOp), c < 262144 → s.pickChannel cycle = some c → s.nextBurst c = some (.counter k) →
      s.pickLane true [] = some l → s.item c = some it → s.portOf (s.counterAddr k.group k.counter) = some p →
      s.portDown p = false →
      ∃ t, exec (.burstIssue cycle) s = .next t ∧ t.mem = s.mem ∧
        ((t.item c).bind (·.counterOp)).map (fun q => (q.group, q.counter, q.value, q.lane, q.issued)) =
          some (k.group, k.counter, k.value, l, true) ∧
        ((t.port p).rd.queue.getLast?.map fun r => (r.owner, r.locked, r.requester)) = some (.counterRead c, true, laneReq l)) ∧
    (∀ (k : CounterOp) (v : Nat), s.item c = some it → it.counterOp = some k → k.value ≠ 0 → k.old = some v →
      k.written = false → (s.ctx c).halting = false → s.journaled = false → k.jpos = none →
      s.portOf (s.counterAddr k.group k.counter) = some p →
      ∃ t, exec (.counterUpdate c) s = .next t ∧ t.mem = s.mem ∧ ((t.item c).bind (·.counterOp)).map (·.written) = some true ∧
        (if s.stashTakes (s.counterAddr k.group k.counter) = none then
           ((t.port p).wr.queue.getLast?.map fun r => (r.owner, r.requester, r.cls, r.beats.map (·.data))) =
             some (.counterWrite c, laneReq k.lane, (s.ctx c).f.cls,
               [placed (s.counterAddr k.group k.counter) (leBytes 8 ((v + k.value) % 2 ^ 64))])
         else t.ports = s.ports))

/-- The command of each RULE's scope. -/
def Sys2Proof.Claims.ruleCommand (k c : Nat) : Option Instr :=
  match k with
  | 0 => some (.ruleStream c)
  | 1 => some (.ruleGroup c)
  | 2 => some (.ruleDevice c)
  | 3 => some (.ruleFabric c)
  | _ => none

/-- RULE_STREAM, RULE_GROUP, RULE_DEVICE and RULE_FABRIC: an undefined field is BAD_OP (R109). A RULE that begins completes at once
when no earlier op of its scope is unacknowledged and no node has to answer; with an earlier op unacknowledged, or a node to
answer, it stands and holds its scope, and each node of its set other than this one has a marker on its way (R109 to R112). One
that stands completes once its earlier ops are acknowledged and its nodes have answered, and otherwise stands on. -/
def Obligations.RulesWaitForTheEarlierOps : Prop :=
  ∀ (k c : Nat) (i : Instr) (s : State) (it : Item) (b : List Byte), Claims.ruleCommand k c = some i →
    s.front c = some (it, b) → opcodeOf b = 0x14 → fieldAt b 4 1 = k →
    (ruleOk b = false → exec i s = .next (s.nextFree.fail c { status := .badOp, detail := s.opDetail it })) ∧
    (ruleOk b = true → (∀ r ∈ s.sched.rules, r.ctx ≠ c) →
      (let g := if fieldAt b 6 2 = 65535 then (s.ctx c).f.group else fieldAt b 6 2
       let nodes := if k = 3 then s.setNodes (fieldAt b 8 1) else []
       let earlier := s.earlierOps fun d => d = c || s.inScope k g c d
       let clear := nodes = [] ∧ (earlier.all fun e => !s.opUnacked e) = true
       (clear → ∃ t, exec i s = .next t ∧ t.mem = s.mem ∧ t.sched.rules = s.sched.rules ∧ (t.item c).map (·.opDone) = some true) ∧
       (¬ clear → ∃ t, exec i s = .next t ∧ t.mem = s.mem ∧ (t.item c).map (·.opDone) = some it.opDone ∧
         t.sched.rules.map (fun r => (r.ctx, r.scope, r.group, r.nodes, r.earlier)) =
           s.sched.rules.map (fun r => (r.ctx, r.scope, r.group, r.nodes, r.earlier)) ++ [(c, k, g, nodes, earlier)] ∧
         ∀ n ∈ nodes, ∃ r ∈ t.fab.remotes, r.owner = .ruleMark c n ∧ r.frame.type = 0x1A ∧ r.frame.dest = n))) ∧
    (∀ r, ruleOk b = true → s.sched.rules.find? (fun q => decide (q.ctx = c)) = some r →
      (let clear := r.nodes = [] ∧ (r.earlier.all fun e => !s.opUnacked e) = true
       (clear → ∃ t, exec i s = .next t ∧ t.mem = s.mem ∧ (∀ q ∈ t.sched.rules, q.ctx ≠ c) ∧ (t.item c).map (·.opDone) = some true) ∧
       (¬ clear → exec i s = .next s)))

/-- OP_COMPLETE of an op whose work is done and acknowledged as R241 asks, with no signal of its own: an END ends the
item's program, and any other op gives way to the next (R88, R241). -/
def Sys2Proof.Claims.OpCompleteGoesOnToTheNextOp : Prop :=
  ∀ (c : Nat) (s : State) (it : Item) (l : List Item), (s.ctx c).items = it :: l → it.opDone = true →
    (s.ctx c).halting = false → (s.ctx c).state = .running → (s.ctx c).cached = true → s.unitWaits schedIsland = false →
    it.counterOp = none → s.opSettled c it (s.opBytes it) = true → opCnt (s.opBytes it) = false → opEvt (s.opBytes it) = false →
    ∃ t, exec (.opComplete c) s = .next t ∧ t.mem = s.mem ∧
      (if opcodeOf (s.opBytes it) = 0x1F then (t.item c).map (fun x => (x.ended, x.opDone)) = some (true, false)
       else it.nextBlock = none → (t.item c).map (fun x => (x.opDone, x.opIdx, x.run)) =
         some (false, it.nextIdx.getD (it.opIdx + 1), none))

/-- ITEM_END of an item whose program has ended: in FLOW the steps of R82 begin with DONE, or DONE_ZERO where it moved
nothing, or DONE_MISMATCH; after the last step the completion is published (R80, R82). -/
def Sys2Proof.Claims.ItemEndPublishesTheCompletion : Prop :=
  ∀ (c : Nat) (s : State) (it : Item) (l : List Item), (s.ctx c).items = it :: l → (s.ctx c).state = .running →
    it.ended = true → (s.ctx c).halting = false → (s.ctx c).cached = true →
    (it.ending = none → s.journaled = false → s.pool.galleys = [] → s.pool.marks = [] →
      ∃ t, exec (.itemEnd c) s = .next t ∧ t.mem = s.mem ∧
        (t.item c).map (fun x => (x.ending, x.endStatus)) = some (some .words,
          if it.mismatch.isSome then 3 else if it.moved then 0 else 1)) ∧
    (it.ending = some .own → it.sent = true → (s.accessFor fun o => o = .ending c) = false →
      ∃ t, exec (.itemEnd c) s = .next t ∧ t.mem = s.mem ∧ (t.ctx c).completed = it.seq ∧
        (t.item c).map (·.ending) = some (some .notify)) ∧
    (it.ending = some .notify → (s.accessFor fun o => o = .ending c) = false → bitOf it.slotFlags 1 = true →
      s.postFull schedIsland (bitsOf it.slotFlags 2 4) = false →
      ∃ t, exec (.itemEnd c) s = .next t ∧ t.mem = s.mem ∧ (t.ctx c).items.map (·.seq) = l.map (·.seq) ∧
        s.postsOf schedIsland (bitsOf it.slotFlags 2 4) + 1 ≤ t.postsOf schedIsland (bitsOf it.slotFlags 2 4) ∧
        ((s.ctx c).header ≠ .none →
          t.postsOf schedIsland (bitsOf it.slotFlags 2 4) = s.postsOf schedIsland (bitsOf it.slotFlags 2 4) + 1))

def Obligations.ProgramStepsSteer : Prop :=
  Claims.NopAndEndCompleteAtOnce ∧ Claims.LoopsOpenRepeatAndClose ∧ Claims.LinkGoesOnUntilItsFuse

def Obligations.WaitsTestTheirCounter : Prop :=
  Claims.WaitTestsTheCounterItRead ∧ Claims.WaitTimeoutHaltsTheChannel

def Obligations.SignalsAndCounterUpdatesTakeEffect : Prop :=
  Claims.SignalsTakeEffectOnceTheStreamIsAcknowledged ∧ Claims.CounterAddReadsThenWritesTheSum

def Obligations.OpsAndItemsEndInOrder : Prop :=
  Claims.OpCompleteGoesOnToTheNextOp ∧ Claims.ItemEndPublishesTheCompletion

/-! ## PUSH, POP and POOL -/

/-- PUSH of nothing completes at once; of whole items onto an item galley of this device it begins with its own push
ordinal, and bytes that are no whole number of items are BAD_PATTERN, reason 04h; onto a packet galley it opens a packet with its own
ordinal, or appends to the item's open packet there with that one's; its seal answered, it is done (R115, R116, R162, R205). -/
def Obligations.PushBeginsAndEnds : Prop :=
  ∀ (c : Nat) (s : State) (it : Item) (b : List Byte), s.front c = some (it, b) → opcodeOf b = 0x16 →
    (it.run = none → fieldAt b 0x10 4 = 0 → exec (.push c) s = .next (s.modItem c fun x => { x with opDone := true })) ∧
    (it.run = none → fieldAt b 0x10 4 ≠ 0 → s.galleyLocal (fieldAt b 4 4) = true →
      (s.galley (galleyNo (fieldAt b 4 4))).state = .active → (s.galley (galleyNo (fieldAt b 4 4))).packet = false →
      (fieldAt b 0x10 4 % (s.galley (galleyNo (fieldAt b 4 4))).width = 0 →
        ∃ t, exec (.push c) s = .next t ∧ t.mem = s.mem ∧
          ((t.item c).bind (·.run)).map (fun r => (r.total, r.ordBase, r.serial, r.phase)) =
            some (fieldAt b 0x10 4, it.pushOrd, s.sched.nextSerial, .data)) ∧
      (fieldAt b 0x10 4 % (s.galley (galleyNo (fieldAt b 4 4))).width ≠ 0 →
        exec (.push c) s = .next (s.fail c { status := .badPattern, detail := 4 * 2 ^ 48 + fieldAt b 4 4 }))) ∧
    (∀ ord, it.run = none → fieldAt b 0x10 4 ≠ 0 → s.galleyLocal (fieldAt b 4 4) = true →
      (s.galley (galleyNo (fieldAt b 4 4))).state = .active → (s.galley (galleyNo (fieldAt b 4 4))).packet = true →
      (if bitOf (fieldAt b 0x14 1) 0 then it.openPacket = none ∧ ord = it.pushOrd
       else ∃ ref, it.openPacket = some (ref, ord) ∧ s.sameGalley ref (fieldAt b 4 4) = true ∧
         it.packetBytes + fieldAt b 0x10 4 ≤ 0xFFFFFFFF) →
      ∃ t, exec (.push c) s = .next t ∧ t.mem = s.mem ∧ (t.item c).bind (·.openPacket) = some (fieldAt b 4 4, ord) ∧
        ((t.item c).bind (·.run)).map (fun r => (r.total, r.ordBase, r.phase)) = some (fieldAt b 0x10 4, ord, .data)) ∧
    (∀ r g a n o cl p, c < 262144 → it.run = some r → r.op = .push g a n o cl p → r.segs = [] → r.phase = .sealing → r.seals = [] →
      ∃ t, exec (.push c) s = .next t ∧ t.mem = s.mem ∧
        (t.item c).map (fun x => (x.opDone, x.moved, x.delivered)) = some (true, true, satAdd (2 ^ 64 - 1) it.delivered r.total))

/-- The conditions of a POP in front of its channel whose fields hold defined values, with room for some byte, that no RULE holds and
for which POOL reads nothing now (R117, R110, R118). -/
def Sys2Proof.Claims.popFront (s : State) (c mode : Nat) (it : Item) (b : List Byte) : Prop :=
  s.front c = some (it, b) ∧ opcodeOf b = 0x17 ∧ fieldAt b 0x1C 1 = mode ∧ s.popOk b = true ∧ fieldAt b 0x10 4 ≠ 0 ∧
    s.held c = false ∧ it.popWait = none

/-- The galley of the POP is active and the two copies of its head agree (R178, R190). -/
def Sys2Proof.Claims.popReady (s : State) (it : Item) (b : List Byte) : Prop :=
  it.popped = none ∧ (s.galley (galleyNo (fieldAt b 4 4))).state = .active ∧
    (s.galley (galleyNo (fieldAt b 4 4))).headA = (s.galley (galleyNo (fieldAt b 4 4))).headB

/-- The command of each mode of POP. -/
def Sys2Proof.Claims.popCommand (mode c : Nat) : Option Instr :=
  match mode with
  | 0 => some (.popReturn c)
  | 1 => some (.popWait c)
  | _ => none

/-- POP takes the head entry, out of its galley in FLOW and under a pop mark in KEEP and TWIN, and POOL is to read its payload for
it; on an empty galley RETURN counts an underrun and POOL is to read the last popped entry, and WAIT waits (R118, R178, R180,
R181). That read is the op's first access, which claims its serial (R110). What POOL had to do before goes first: the state after
is that of POOL's going on from u. -/
def Sys2Proof.Claims.PopLeavesItsGalley : Prop :=
  ∀ (mode c g : Nat) (i : Instr) (s : State) (it : Item) (b : List Byte), Claims.popCommand mode c = some i →
    Claims.popFront s c mode it b → Claims.popReady s it b → galleyNo (fieldAt b 4 4) = g →
    (∀ e, s.popEntry c it g = some e → e.heldBy = none → (s.galley g).heads ≠ [] → e.length ≤ fieldAt b 0x10 4 →
      (s.journaled = true → s.pool.marksUsed < s.obj 0x7004 0) → s.popObstacle c b e.length = none →
      ∃ u : State, exec i s = .next u.poolRun ∧ u.mem = s.mem ∧
        (u.galley g).entries = (if s.journaled then (s.galley g).entries.map fun x =>
          if x = e then { e with heldBy := some (c, it.seq, it.popOrd), markSlot := s.pool.freeSlot } else x
          else (s.galley g).entries.erase e) ∧
        (u.galley g).heads = (s.galley g).heads.drop 1 ∧ (u.item c).bind (·.popWait) = some (s.claim c).sched.nextSerial ∧
        u.pool.jobs.getLast? = some (.payload c (s.claim c).sched.nextSerial g e.cells
          (e.offset + if (s.galley g).packet then 8 else 0) e.length false)) ∧
    (s.popEntry c it g = none →
      (mode = 1 → ∃ t, exec i s = .next t ∧ t.mem = s.mem ∧ t.pool = s.pool ∧ (t.ctx c).state = .waiting ∧
        (t.ctx c).waitOn = some (.pop g)) ∧
      (mode = 0 → ∀ e, (s.galley g).lastPopped = some e → e.length ≤ fieldAt b 0x10 4 → s.popObstacle c b e.length = none →
        ∃ u : State, exec i s = .next u.poolRun ∧ u.mem = s.mem ∧
          (u.galley g).underruns = satAdd u32Max (s.galley g).underruns 1 ∧ (u.galley g).entries = (s.galley g).entries ∧
          (u.item c).bind (·.popWait) = some (s.claim c).sched.nextSerial ∧
          u.pool.jobs.getLast? = some (.payload c (s.claim c).sched.nextSerial g e.cells
            (e.offset + if (s.galley g).packet then 8 else 0) e.length true)) ∧
      (mode = 0 → (s.galley g).lastPopped = none → s.popObstacle c b 0 = none →
        ∃ t, exec i s = .next t ∧ t.mem = s.mem ∧ (t.galley g).underruns = satAdd u32Max (s.galley g).underruns 1 ∧
          (t.item c).map (fun x => (x.opDone, x.popped)) = some (true, some ([], true))))

/-- POP with the payload that POOL has read writes it and its result and is done, and one whose MAX_LEN is 0 is done at once (R118). -/
def Sys2Proof.Claims.PopWritesWhatPoolRead : Prop :=
  ∀ (mode c : Nat) (i : Instr) (s : State) (it : Item) (b : List Byte), Claims.popCommand mode c = some i →
    (∀ d u, Claims.popFront s c mode it b → it.popped = some (d, u) → s.popObstacle c b d.length = none →
      ∃ t, exec i s = .next t ∧ t.mem = s.mem ∧ t.pool = s.pool ∧
        (t.item c).map (fun x => (x.opDone, x.popOrd, x.popped, x.delivered)) =
          some (true, it.popOrd + 1, some (d, u), satAdd (2 ^ 64 - 1) it.delivered d.length)) ∧
    (s.front c = some (it, b) → opcodeOf b = 0x17 → fieldAt b 0x1C 1 = mode → s.popOk b = true → fieldAt b 0x10 4 = 0 →
      exec i s = .next (s.modItem c fun x => { x with popOrd := x.popOrd + 1, opDone := true }))

/-- POP_TIMEOUT halts with WAIT_TIMEOUT, POOL_WAIT_EXPIRY with POOL_EMPTY, each naming the galley, the second also where the wait is
for the mark table; a POOL_WAIT of 0 is no limit (R118, R175, R184). -/
def Sys2Proof.Claims.GalleyWaitsExpire : Prop :=
  ∀ (c g : Nat) (s : State),
    (∀ it, (s.ctx c).waitOn = some (.pop g) → s.item c = some it → fieldAt (s.opBytes it) 0x1D 3 ≠ 0 →
      exec (.popTimeout c) s = .next ((s.unstall c).fail c { status := .waitTimeout, detail := g })) ∧
    ((s.ctx c).waitOn = some (.emptyPool g) ∨ (s.ctx c).waitOn = some (.fullMarks g) → s.obj 0x7005 0 ≠ 0 →
      exec (.poolWaitExpiry c) s = .next ((s.unstall c).fail c { status := .poolEmpty, detail := g })) ∧
    ((s.ctx c).waitOn = some (.emptyPool g) ∨ (s.ctx c).waitOn = some (.fullMarks g) → s.obj 0x7005 0 = 0 →
      exec (.poolWaitExpiry c) s = .next s)

/-- POOL_PIECE of a producer in FLOW opens a unit at its item galley with the piece's bytes, buffered while they fit 992 B
(R167, R168, R170). What POOL had to do before goes first: the state after is that of POOL's going on from u. -/
def Sys2Proof.Claims.PoolPieceOpensAUnit : Prop :=
  ∀ (i : Nat) (s : State) (p : Piece), s.unitWaits poolIsland = false → s.pool.pieces[i]? = some p → p.marked = false → p.rowLen = 0 →
    (s.galley p.galley).state = .active → (s.galley p.galley).packet = false → (s.galley p.galley).limit = 0 →
    ((s.galley p.galley).sealing.any fun x => OpenUnit.is x.unit p) = false →
    p.data.length % (s.galley p.galley).width = 0 → p.data.length ≤ 992 → s.buffersUsed < 2048 →
    s.pool.markOf p = none → ((s.galley p.galley).units.find? fun u => u.is p) = none →
    ∃ u : State, exec (.poolPiece i) s = .next u.poolRun ∧ u.mem = s.mem ∧ u.pool.pieces = s.pool.pieces.eraseIdx i ∧
      (u.galley p.galley).entries = (s.galley p.galley).entries ∧
      (u.galley p.galley).units = (s.galley p.galley).units ++
        [{ stream := p.stream, seq := p.seq, ord := p.ord, attempt := p.attempt, parts := [(p.pieceNo, p.data)],
           staged := false, cells := [], stored := [p.pieceNo] }]

/-- POOL_SEAL of a unit whose pieces are all stored, the first at its galley that can be taken (R206), with room and agreeing tails:
in FLOW the unit's entries stand behind the galley's, one of each item or one of the packet, and the unit is closed; in KEEP and TWIN the
seal is under way until all it writes is acknowledged, and no entry is poppable before (R168, R169, R173). What POOL had to do before
goes first: the state after is that of POOL's going on from v. -/
def Sys2Proof.Claims.PoolSealAppendsTheUnit : Prop :=
  ∀ (i : Nat) (s : State) (p : Piece) (u : OpenUnit), s.unitWaits poolIsland = false → s.pool.seals[i]? = some p →
    s.sealable p = true → (∀ j q, j < i → s.pool.seals[j]? = some q → q.galley ≠ p.galley ∨ s.sealable q = false) →
    (s.galley p.galley).state = .active → s.pieceAct p = .join → ((s.galley p.galley).units.find? fun v => v.is p) = some u →
    (s.galley p.galley).tailA = (s.galley p.galley).tailB →
    s.canDraw p.galley (if u.staged then 0 else (s.galley p.galley).appendCells u.bytes.length) = true →
    ∃ v : State, exec (.poolSeal i) s = .next v.poolRun ∧ v.mem = s.mem ∧
      (s.journaled = false →
        (v.galley p.galley).entries.map (fun e => (e.length, e.stream, e.seq, e.ord)) =
          (s.galley p.galley).entries.map (fun e => (e.length, e.stream, e.seq, e.ord)) ++
            (if (s.galley p.galley).packet then [(u.bytes.length, u.stream, u.seq, u.ord)]
             else List.replicate (u.bytes.length / (s.galley p.galley).width) ((s.galley p.galley).width, u.stream, u.seq, u.ord)) ∧
        (v.galley p.galley).units = (s.galley p.galley).units.filter fun w => !w.is p) ∧
      (s.journaled = true →
        (v.galley p.galley).entries = (s.galley p.galley).entries ∧ (v.galley p.galley).units = (s.galley p.galley).units ∧
          (v.galley p.galley).sealing.map (·.piece) = some p ∧ v.pool.jobs.getLast? = some (.sealEnd p.galley))

/-- GALLEY_REBUILD in KEEP and TWIN of a galley that rebuilds has POOL read its descriptor, unless the rebuild has begun; once it is
read, with a FLUSH record at or above its JPOS, the galley is ACTIVE again with the held entries alone (R191). -/
def Sys2Proof.Claims.RebuildAfterAFlushKeepsHeldEntries : Prop :=
  ∀ (g : Nat) (s : State), (s.galley g).state = .rebuilding →
    (s.journaled = true → s.pool.jobs = [] →
      ∃ u : State, exec (.galleyRebuild g) s = .next u.poolRun ∧ u.mem = s.mem ∧ u.pool.jobs = [.rebuild g] ∧ u.pool.galleys = s.pool.galleys) ∧
    (∀ l, s.pool.jobs = .rebuild g :: l → (s.galley g).units = [] →
      (s.jrn.log.any fun r => r.kind = .flush && decide (r.galley = g) && decide (s.numAt (s.descAddr g) 8 ≤ r.pos)) = true →
      (s.poolFinish.galley g).state = .active ∧ (s.poolFinish.galley g).entries = (s.galley g).held)

/-- ROOM: a channel whose item has no op under way and that waits at the galley on a ground that has gone runs on (R183, R184). What
POOL had to do goes on from u. -/
def Sys2Proof.Claims.RoomWakesTheWaitingChannel : Prop :=
  ∀ (g c : Nat) (s : State) (x : Ctx) (w : WaitOn), s.ctxs = [(c, x)] → c < 262144 → x.state = .waiting →
    x.waitOn = some w → w.roomAt = some g → s.roomNow w = true → x.items.all (fun it => it.run.isNone) = true →
    ∃ u : State, exec (.room g) s = .next u.poolRun ∧ u.mem = s.mem ∧ (u.ctx c).state = .running ∧ (u.ctx c).waitOn = none

def Obligations.UnitsAreStoredAndWaitsEnd : Prop :=
  Claims.PoolPieceOpensAUnit ∧
    Claims.PoolSealAppendsTheUnit ∧
    Claims.RebuildAfterAFlushKeepsHeldEntries ∧
    Claims.GalleyWaitsExpire ∧
    Claims.RoomWakesTheWaitingChannel

def Obligations.PopTakesTheHeadEntry : Prop :=
  Claims.PopLeavesItsGalley ∧ Claims.PopWritesWhatPoolRead

/-! ## The memory ports -/

/-- MEM_HOLD_ASSERT, MEM_HOLD_RELEASE, THROTTLE_ASSERT, THROTTLE_DEASSERT and QUOTA_WINDOW_START of a port: HOLD and THROTTLE are its
flags; the release of HOLD ends its episode, the release of THROTTLE every wait of port leading (R355, R359, R360). While HOLD is
asserted an absent clock of the port's island counts as paused, and nothing hangs at the port; at the release it counts as
stopped, and what waits there hangs (R337, R347, R358). A quota window restarts the counts (R224). -/
def Sys2Proof.Claims.SidebandsSetTheirPort : Prop :=
  ∀ (p : Nat) (s : State),
    (p < 8 → (s.island (portIsland p)).clockPresent = true →
      exec (.memHoldAssert p) s = .next (s.setPort p { s.port p with hold := true }) ∧
      exec (.memHoldRelease p) s = .next (s.setPort p { s.port p with hold := false, holdLongRaised := false })) ∧
    (p < 8 → (s.island (portIsland p)).clockPresent = false →
      (∃ t, exec (.memHoldAssert p) s = .next t ∧ t.mem = s.mem ∧ (t.port p).hold = true ∧
        t.island (portIsland p) = { s.island (portIsland p) with clockPaused := true } ∧
        (∀ r ∈ (t.port p).rd.queue ++ (t.port p).wr.queue, r.hung = false)) ∧
      (∃ t, exec (.memHoldRelease p) s = .next t ∧ t.mem = s.mem ∧ (t.port p).hold = false ∧ (t.port p).holdLongRaised = false ∧
        t.island (portIsland p) = { s.island (portIsland p) with clockPaused := false } ∧
        (∀ r ∈ (t.port p).rd.queue ++ (t.port p).wr.queue, r.hung = true))) ∧
    exec (.throttleAssert p) s = .next (s.setPort p { s.port p with throttle := true }) ∧
    exec (.throttleDeassert p) s = .next (s.setPort p { s.port p with
      throttle := false, rd := { (s.port p).rd with leadUntil := 0 }, wr := { (s.port p).wr with leadUntil := 0 } }) ∧
    exec (.quotaWindowStart p) s = .next (s.setPort p { s.port p with
      quota0 := 0, quota1 := 0, limit0 := s.obj 0x4020 0, limit1 := s.obj 0x4021 0 })

/-- MEM_HOLD_LONG is raised once for one assertion of HOLD, and never with HOLD_LONG 0 or without HOLD (R359). -/
def Sys2Proof.Claims.HoldLongIsRaisedOncePerAssertion : Prop :=
  ∀ (p : Nat) (s : State),
    ((s.port p).hold = true → (s.port p).holdLongRaised = false → s.obj 0x3120 0 ≠ 0 →
      ∃ t, exec (.memHoldLong p) s = .next t ∧ t.mem = s.mem ∧ t.ports = (s.setPort p { s.port p with holdLongRaised := true }).ports ∧
        Tab.get zeroTab t.ctl.eventCount 14 = satAdd u32Max (Tab.get zeroTab s.ctl.eventCount 14) 1) ∧
    ((s.port p).hold = false ∨ (s.port p).holdLongRaised = true ∨ s.obj 0x3120 0 = 0 → exec (.memHoldLong p) s = .next s)

/-- DOMAIN_DOWN_REQUEST keeps QREQ; DOMAIN_DOWN gives QACK once the port is drained and no locked burst that has begun has a read to
come, and DOMAIN_RETURN clears both (R361, R362). A channel whose request has not begun stalls in WAITING, and DOMAIN_LIMIT ends
that stall with DOMAIN_DOWN at the first byte of its stream that needs a domain that is down (R132, R264), of a legacy slot as well
(R446), and turns an inbound request away (R306); with DOMAIN_LIMIT 0 it ends nothing. -/
def Sys2Proof.Claims.DomainGoesDownDrainedAndReturns : Prop :=
  ∀ (p : Nat) (s : State),
    (s.domainNeeds p = [] → exec (.domainDownRequest p) s = .next (s.setPort p { s.port p with qreq := true })) ∧
    (∀ c a o, s.domainNeeds p = [(c, a, o)] → c < 262144 → (s.ctx c).state = .running →
      ∃ t, exec (.domainDownRequest p) s = .next t ∧ t.mem = s.mem ∧ t.port p = { s.port p with qreq := true } ∧
        (t.ctx c).state = .waiting ∧ (t.ctx c).waitOn = some (.domain p a o)) ∧
    ((s.port p).qreq = true → (s.port p).drained = true → (s.port p).rd.queue.any s.lockBegun = false →
      exec (.domainDown p) s = .next (s.setPort p { s.port p with qack := true })) ∧
    ((s.port p).qreq = false ∨ (s.port p).drained = false ∨ (s.port p).rd.queue.any s.lockBegun = true →
      exec (.domainDown p) s = .next s) ∧
    (∃ t, exec (.domainReturn p) s = .next t ∧ t.mem = s.mem ∧ (t.port p).qreq = false ∧ (t.port p).qack = false) ∧
    (∀ c a o, c < 262144 → s.obj 0x3130 0 ≠ 0 → (s.ctx c).waitOn = some (.domain p a o) → (s.ctx c).items ≠ [] →
      (let e := (s.endStall c p a o).2
       e.2.2 ≤ o ∧
       ∃ t, exec (.domainLimit c) s = .next t ∧ t.mem = s.mem ∧ (t.ctx c).waitOn = none ∧ (t.ctx c).halting = true ∧
         (t.ctx c).faults = (s.ctx c).faults ++
           [{ offset := e.2.2, status := .domainDown, detail := e.2.1, cause := 6, port := e.1, address := e.2.1,
              signal := s.counting c }])) ∧
    (∀ k a o, k < 64 → s.obj 0x3130 0 ≠ 0 → (s.slot k).stalled = some (.domain p a o) →
      (let e := (s.endStall (262144 + k) p a o).2
       e.2.2 ≤ o ∧
       ∃ t, exec (.domainLimit (262144 + k)) s = .next t ∧ t.mem = s.mem ∧ (t.slot k).stalled = none ∧
         (t.slot k).faults = (s.slot k).faults ++
           [{ offset := e.2.2, status := .domainDown, detail := e.2.1, cause := 6, port := e.1, address := e.2.1 }])) ∧
    (∀ k f, s.obj 0x3130 0 ≠ 0 → s.fab.serving[k]? = some f →
      ∃ t, exec (.domainLimit (262208 + k)) s = .next t ∧ t.mem = s.mem ∧
        t.fab.serving = s.fab.serving.filter fun g => !(g.src = f.src && decide (g.tag = f.tag))) ∧
    (∀ c, s.obj 0x3130 0 = 0 → exec (.domainLimit c) s = .next s)

/-- The winner of a round is a request of the slot's class where one is there, and else one of the highest class (R225). -/
def Sys2Proof.Claims.RoundWinnerFollowsTheSlotByte : Prop :=
  ∀ (byte : Nat) (l : List PortReq), (∀ x ∈ l, x.cls < 8) → l ≠ [] →
    ∃ r, winner byte l = some r ∧ r ∈ l ∧
      ((∃ x ∈ l, x.cls = byte) → r.cls = byte) ∧
      ((∀ x ∈ l, x.cls ≠ byte) → ∀ x ∈ l, r.cls ≤ x.cls)

/-- ARBITRATION_ROUND on a channel that no burst owns: the winner of R225 among the presented requests that are eligible owns the
channel from two cycles on, one beat a cycle (R225, R228, R229, R230), and the slot pointer has advanced. -/
def Sys2Proof.Claims.ArbitrationGrantsTheWinner : Prop :=
  ∀ (p cycle : Nat) (w : Bool) (tags : List Nat) (s : State) (r : PortReq), p < 8 →
    (s.island (portIsland p)).unreachable = false → ((s.port p).chan w).owner = none → ((s.port p).chan w).cutAt ≤ cycle →
    ((s.port p).chan w).slot + 1 < 512 →
    (let q1 := (s.roundPort p).sample w false cycle
     let q2 := q1.advanceSlot w
     winner (q1.slotByte w) ((q2.chan w).queue.filter fun x => x.presented.isSome && q2.eligible w s.throttleShare cycle x) = some r) →
    ∃ t, exec (.arbitrationRound p w cycle tags) s = .next t ∧ t.mem = s.mem ∧ (t.port p).qreq = (s.port p).qreq ∧
      ((t.port p).chan w).slot = ((s.port p).chan w).slot + 1 ∧
      ((t.port p).chan w).owner.map (fun g => (g.req, g.firstBeat, g.lastBeat)) =
        some (r, cycle + 2, cycle + 2 + r.beats.length - 1)

/-- PREEMPTION_ROUND, a scheduled round of its cycle abandoned: an unlocked owner whose beats have begun by the deciding cycle, with
beats left past it, gives way to a higher class that the preempting set holds; its request returns to the queue, parked (R231,
R232). That what R228 asks of a request holds here too is the model's choice (assumption log 96). -/
def Sys2Proof.Claims.PreemptionCutsALowerClass : Prop :=
  ∀ (p cycle : Nat) (w : Bool) (tags : List Nat) (s : State) (g : Grant) (r : PortReq), p < 8 →
    (s.island (portIsland p)).unreachable = false → g.locked = false → g.firstBeat ≤ cycle + 1 → cycle + 1 < g.lastBeat →
    (let q := ((s.roundPort p).abandon w cycle).sample w true cycle
     (q.chan w).owner = some g ∧ q.parkedCount < 128 ∧
       highest ((q.chan w).queue.filter fun x => x.presented.isSome &&
         bitOf (s.obj 0x4030 0) x.cls && decide (x.cls < g.cls) && q.eligible w s.throttleShare cycle x) = some r) →
    ∃ t, exec (.preemptionRound p w cycle tags) s = .next t ∧ t.mem = s.mem ∧ r.cls < g.cls ∧
      ((t.port p).chan w).owner.map (fun h => (h.req, h.cls)) = some (r, r.cls) ∧
      { g.req with parked := true } ∈ ((t.port p).chan w).queue

/-- An access whose error is met by another attempt (R256, R257): retries are left, or it is one of POOL's for which no POP waits
(the model's choice, assumption log 13), no halt has ended its channel's reads (R249, R253), and it is not the request of another node (R263). -/
def Sys2Proof.Claims.retries (s : State) (a : Access) : Prop :=
  (s.obj 0x4010 0 = 0 ∨ a.beat.attempts < s.obj 0x4010 0 ∨ (a.owner = .pool ∧ s.poolEndures = true)) ∧ s.readsStopped a.owner = false ∧
    a.owner.inbound = false

/-- A write response without error lands the write's bytes, and no others; with an error, and the write not applied, it
lands none, and the access is presented again while retries are left; a tag that is not outstanding is a fault of the
port's island (R256, R257, R415, R417). While the port's island takes no input nothing is answered (R410). -/
def Sys2Proof.Claims.WriteResponseLandsItsBytes : Prop :=
  ∀ (p tag : Nat) (s : State), p < 8 →
    (∀ err applied, (s.island (portIsland p)).unreachable = true → exec (.writeResponse p tag err applied) s = .next s) ∧
    ((s.island (portIsland p)).unreachable = false →
    (∀ a applied, ((s.port p).wr.out.find? fun x => x.tag = tag) = some a →
      ∃ t, exec (.writeResponse p tag false applied) s = .next t ∧ t.mem = (s.land a.beat.data).mem ∧
        ∀ k, (∀ e ∈ a.beat.data, e.1 ≠ k) → t.byteAt k = s.byteAt k) ∧
    (∀ a, ((s.port p).wr.out.find? fun x => x.tag = tag) = some a → a.discard = false → Claims.retries s a →
      (∀ c n g, a.owner ≠ .opRead c n g) →
      ∃ t, exec (.writeResponse p tag true false) s = .next t ∧ t.mem = s.mem ∧
        ((t.port p).wr.queue.getLast?.map fun r => (r.owner, r.beats)) =
          some (a.owner, [{ a.beat with attempts := a.beat.attempts + 1 }])) ∧
    (∀ err applied, ((s.port p).wr.out.find? fun x => x.tag = tag) = none →
      exec (.writeResponse p tag err applied) s = .next (s.islandFault (portIsland p))))

/-- A read data beat: an errored one is presented again while retries are left, a counter's value is taken, a retired tag is
dropped, and a tag that is not outstanding is a fault of the port's island (R256, R258, R414, R417). While the port's island takes
no input nothing is answered (R410). -/
def Sys2Proof.Claims.ReadDataReturnsToItsOwner : Prop :=
  ∀ (p tag : Nat) (s : State), p < 8 →
    (∀ err, (s.island (portIsland p)).unreachable = true → exec (.readDataReturn p tag err) s = .next s) ∧
    ((s.island (portIsland p)).unreachable = false →
    (∀ a, (s.port p).rd.retired.contains tag = false → ((s.port p).rd.out.find? fun x => x.tag = tag) = some a →
      a.discard = false →
      (Claims.retries s a →
        ∃ t, exec (.readDataReturn p tag true) s = .next t ∧ t.mem = s.mem ∧
          ((t.port p).rd.queue.getLast?.map fun r => (r.owner, r.beats)) =
            some (a.owner, [{ a.beat with attempts := a.beat.attempts + 1 }])) ∧
      (∀ c it k, a.owner = .counterRead c → s.item c = some it → it.counterOp = some k →
        ∃ t, exec (.readDataReturn p tag false) s = .next t ∧ t.mem = s.mem ∧
          (t.item c).bind (·.counterOp) = some { k with old := some (s.numAt a.beat.first 8) })) ∧
    ((s.port p).rd.retired.contains tag = true →
      ∀ err, exec (.readDataReturn p tag err) s =
        .next (s.setPort p { s.port p with rd := { (s.port p).rd with retired := (s.port p).rd.retired.filter (· ≠ tag) } })) ∧
    ((s.port p).rd.retired.contains tag = false → ((s.port p).rd.out.find? fun x => x.tag = tag) = none →
      ∀ err, exec (.readDataReturn p tag err) s = .next (s.islandFault (portIsland p))))

/-- ACCESS_TIMEOUT of a read: its tag is retired, of a write: its tag stays out and its response is to be discarded; the access is
presented again with a new tag while retries are left; with ACCESS_TIMEOUT 0, or while HOLD stands, nothing expires (R256, R257, R258). -/
def Sys2Proof.Claims.AccessTimeoutRetiresTheTag : Prop :=
  ∀ (p tag : Nat) (w applied : Bool) (s : State),
    (∀ a, s.obj 0x3100 0 ≠ 0 → (s.port p).hold = false →
      ((s.port p).rd.out.find? fun x => decide (x.tag = tag) && !x.discard) = some a →
      Claims.retries s a →
      ∃ t, exec (.accessTimeout p false tag applied) s = .next t ∧ t.mem = s.mem ∧ tag ∈ (t.port p).rd.retired ∧
        (∀ x ∈ (t.port p).rd.out, x.tag ≠ tag) ∧
        ((t.port p).rd.queue.getLast?.map fun r => (r.owner, r.beats)) =
          some (a.owner, [{ a.beat with attempts := a.beat.attempts + 1 }])) ∧
    (∀ a, s.obj 0x3100 0 ≠ 0 → (s.port p).hold = false →
      ((s.port p).wr.out.find? fun x => decide (x.tag = tag) && !x.discard) = some a → Claims.retries s a →
      (∀ c n g, a.owner ≠ .opRead c n g) →
      ∃ t, exec (.accessTimeout p true tag false) s = .next t ∧ t.mem = s.mem ∧
        (∀ x ∈ (t.port p).wr.out, x.tag = tag → x.discard = true) ∧
        ((t.port p).wr.queue.getLast?.map fun r => (r.owner, r.beats)) =
          some (a.owner, [{ a.beat with attempts := a.beat.attempts + 1 }])) ∧
    (s.obj 0x3100 0 = 0 ∨ (s.port p).hold = true → exec (.accessTimeout p w tag applied) s = .next s)

def Obligations.SidebandsHoldAndDomains : Prop :=
  Claims.SidebandsSetTheirPort ∧ Claims.HoldLongIsRaisedOncePerAssertion ∧ Claims.DomainGoesDownDrainedAndReturns

def Obligations.RoundsGrantAndPreempt : Prop :=
  Claims.RoundWinnerFollowsTheSlotByte ∧ Claims.ArbitrationGrantsTheWinner ∧ Claims.PreemptionCutsALowerClass

def Obligations.AccessesAreAnsweredRetriedOrRetired : Prop :=
  Claims.WriteResponseLandsItsBytes ∧ Claims.ReadDataReturnsToItsOwner ∧ Claims.AccessTimeoutRetiresTheTag

/-! ## The journal and the twin -/

/-- JOURNAL_RECLAIM passes a record of an item that is complete, and carries the ACCEPT record of one that is not: a copy at the
next position, CARRIED set, under the open epoch; the reclaim point passes the original once the copy has entered the ring, and not
before (R278). -/
def Sys2Proof.Claims.ReclaimPassesOrCarries : Prop :=
  ∀ (s : State) (r : Record), s.ctl.mode ≠ .recover → s.unitWaits jrnIsland = false →
    (s.jrn.log.find? fun q => q.pos = s.jrn.reclaim) = some r →
    (r.kind = .accept → s.jrn.copy = none → s.itemLive r.ctx r.seq = false →
      ∃ t, exec .journalReclaim s = .next t ∧ t.jrn.reclaim = r.pos + 1 ∧ t.jrn.head = s.jrn.head) ∧
    (∀ p, s.jrn.copy = some p →
      (s.inRing p = true → ∃ t, exec .journalReclaim s = .next t ∧ t.jrn.reclaim = r.pos + 1 ∧ t.jrn.head = s.jrn.head ∧
        t.jrn.copy = none) ∧
      (s.inRing p = false → exec .journalReclaim s = .next s)) ∧
    (r.kind = .accept → s.jrn.copy = none → s.itemLive r.ctx r.seq = true → r.void = false → admits s .counter = true →
      ∃ t, exec .journalReclaim s = .next t ∧ t.jrn.reclaim = s.jrn.reclaim ∧ t.jrn.head = s.jrn.head + 1 ∧
        t.jrn.copy = some s.jrn.head ∧ t.jrn.inFlight.getLast? = some { r with carried := true, pos := s.jrn.head, epoch := s.jrn.epoch })

/-- The reclaim point's move of the anchor's TAIL: JRN writes the anchor once it has moved by a sixteenth of the ring (R273), and
the positions below TAIL are free from the answer of that write on (R279). -/
def Sys2Proof.Claims.TailMovesBySixteenthsOfTheRing : Prop :=
  (∀ (s : State) (r : Record), s.ctl.mode ≠ .recover → s.unitWaits jrnIsland = false →
    (s.jrn.log.find? fun q => q.pos = s.jrn.reclaim) = some r → r.kind = .accept → s.itemLive r.ctx r.seq = false → s.jrn.copy = none →
    ∃ t, exec .journalReclaim s = .next t ∧
      t.jrn.tail = (if ringRecords s / 16 ≤ r.pos + 1 - s.jrn.tail then r.pos + 1 else s.jrn.tail) ∧
      t.jrn.tailWritten = s.jrn.tailWritten ∧ t.mem = s.mem) ∧
  (∀ (s : State) (p tag : Nat) (a : Access) (applied : Bool), p < 8 → (s.island (portIsland p)).unreachable = false → ((s.port p).wr.out.find? fun x => x.tag = tag) = some a →
    a.owner = .upkeep → a.discard = false → s.jrn.upkeep = [] → s.jrn.failed = [] →
    ((s.dropAccess p true tag).accessFor fun o => o = .upkeep) = false →
    ∃ t, exec (.writeResponse p tag false applied) s = .next t ∧ t.mem = (s.land a.beat.data).mem ∧
      t.jrn.tailWritten = s.jrn.tail ∧ freePositions t = ringRecords t - (t.jrn.head - s.jrn.tail))

/-- The retries: JRN presents a failed write again at its port (R270), and SCHED the acceptance word (R263), which in a stash range
goes to the stash port (R426). -/
def Sys2Proof.Claims.RetriesPresentTheWriteAgain : Prop :=
  ∀ (s : State),
    (∀ r b p, s.unitWaits jrnIsland = false → s.jrn.failed = [r] → r.posted = false → r.beats = [b] → s.portOf b.addr = some p →
      ∃ t, exec .journalWriteRetry s = .next t ∧ t.mem = s.mem ∧ t.jrn.failed = [{ r with posted := true }] ∧
        (t.port p).wr.queue = (s.port p).wr.queue ++ [{ r with since := (s.port p).cycle + 1 }]) ∧
    (∀ c p, (s.ctx c).wordRetry = true → (s.accessFor fun o => o = .acceptWord c) = false →
      s.portOf (s.ctx c).f.acceptAddr = some p →
      ∃ t, exec (.acceptWordRetry c) s = .next t ∧ t.mem = s.mem ∧ (t.ctx c).wordRetry = false ∧
        (s.stashTakes (s.ctx c).f.acceptAddr = none →
          ((t.port p).wr.queue.getLast?.map fun r => (r.owner, r.beats.map (·.data))) =
            some (.acceptWord c, [placed (s.ctx c).f.acceptAddr (acceptWordBytes s c)])) ∧
        ((s.stashTakes (s.ctx c).f.acceptAddr).isSome = true → t.ports = s.ports))

/-- REEXECUTION_SCAN: an epoch that the items wait for opens first (R281); with its record, its anchor and the sums of cut counter
updates written, the items that waited for JRN's scan begin: their channel runs (R273, R277, R282). -/
def Sys2Proof.Claims.ScanEndBeginsTheWaitingItems : Prop :=
  ∀ (s : State),
    (s.jrn.epochDue = true → admits s .epoch = true →
      ∃ t, exec .reexecutionScan s = .next t ∧ t.mem = s.mem ∧ t.jrn.epochDue = false ∧ t.jrn.epoch = s.jrn.epoch + 1 ∧
        t.jrn.head = s.jrn.head + 1 ∧ t.jrn.scanWait = s.jrn.scanWait) ∧
    (∀ c, s.jrn.epochDue = false → s.upkeepBusy = false → s.jrn.settles = [] →
      (s.jrn.inFlight.all fun r => decide (r.kind ≠ .epoch)) = true →
      s.jrn.scanWait = [c] → (s.ctx c).items ≠ [] → (s.ctx c).pauseBit = false →
      ∃ t, exec .reexecutionScan s = .next t ∧ t.mem = s.mem ∧ t.jrn.scanWait = [] ∧
        ((t.ctx c).state = .running ∨ (t.ctx c).state = .waiting))

/-- TWIN_POINT from the twin, in TWIN, below the head: the point rises to it and never falls (R285, R286). -/
def Sys2Proof.Claims.TwinPointNeverFalls : Prop :=
  ∀ (src point : Nat) (s : State), s.twin.held = true →
    (src = s.obj 0x9020 0 % 4096 → s.shipping = true → point < s.jrn.head → s.twin.point ≤ point → s.jrn.releases = [] →
      exec (.twinPoint src point) s = .next { s with twin := { s.twin with
        point := point
        state := if s.twin.point < point then 1 else s.twin.state
        unreachableRaised := if s.twin.point < point then false else s.twin.unreachableRaised } }) ∧
    (point < s.twin.point → exec (.twinPoint src point) s = .next s)

/-- TWIN_ACK_TIMEOUT with a record unshipped: the twin reads unreachable (R288); TWIN_LOSS_LIMIT raises TWIN_UNREACHABLE
once per break, and not with a limit of 0 (R67). -/
def Sys2Proof.Claims.TwinLossIsNoticed : Prop :=
  ∀ s : State,
    (s.unshipped = true → ∃ t, exec .twinAckTimeout s = .next t ∧ t.mem = s.mem ∧ t.twin = { s.twin with state := 2 }) ∧
    (s.unshipped = false → exec .twinAckTimeout s = .next s) ∧
    (s.twinLost = true → s.obj 0x9023 0 ≠ 0 → s.twin.unreachableRaised = false →
      ∃ t, exec .twinLossLimit s = .next t ∧ t.mem = s.mem ∧ t.twin = { s.twin with unreachableRaised := true } ∧
        Tab.get zeroTab t.ctl.eventCount 10 = satAdd u32Max (Tab.get zeroTab s.ctl.eventCount 10) 1) ∧
    (s.twin.unreachableRaised = true ∨ s.obj 0x9023 0 = 0 → exec .twinLossLimit s = .next s)

/-- The handshake of R284: a twin that serves the node with a shadow large enough is ready, and the answer of the configured
twin is kept while the handshake waits. -/
def Sys2Proof.Claims.TwinHandshake : Prop :=
  ∀ (src tag epoch records point : Nat) (ready valid : Bool) (s : State),
    (s.ctl.mode ≠ .halt → s.serves src = true → records ≤ s.obj 0x9032 0 →
      ∃ t, exec (.twinHello src tag epoch records) s = .next t ∧ t.mem = s.mem ∧ t.twin.shadowEpoch = epoch ∧ t.twin.shadowOpen = 0 ∧
        t.fab = (s.sendFrame { type := 0x1D, vl := 2, dest := src, tag := tag, word := 1 + boolBit s.twin.shadowHeld 1,
                               payload := leBytes 8 s.twin.shadowPoint ++ leBytes 8 0 }).fab) ∧
    (src = s.obj 0x9020 0 % 4096 → s.ctl.recoverStage = .handshake →
      exec (.twinReady src ready valid point) s = .next { s with twin := { s.twin with answer := some (ready, valid, point) } })

/-- TWIN_SHIP for the node whose shadow this device keeps: each record is presented as a write at its place of the
shadow ring, at its memory port or, in a stash range, at the stash port (R285, R289, R426). -/
def Sys2Proof.Claims.ShippedRecordsAreWrittenToTheShadow : Prop :=
  ∀ (src tag tail p : Nat) (b : List Byte) (s : State), s.serves src = true → s.twin.shadowHeld = true →
    s.twin.waiting = [] → s.clearing = false → s.twin.shadowAnchorTail ≤ tail →
    tail - s.twin.shadowAnchorTail < s.obj 0x9032 0 / 16 → s.portOf (shadowAddr s (fieldAt b 8 8)) = some p →
    ∃ t, exec (.twinShip src tag tail false [b]) s = .next t ∧ t.mem = s.mem ∧ t.twin.shadowTail = tail ∧
      t.twin.shipTag = tag ∧ t.twin.shadowPoint = s.twin.shadowPoint ∧
      (s.stashTakes (shadowAddr s (fieldAt b 8 8)) = none →
        ((t.port p).wr.queue.getLast?.map fun r => (r.owner, r.beats.map (·.data))) =
          some (.shadow (fieldAt b 8 8), [placed (shadowAddr s (fieldAt b 8 8)) (b.take 64)])) ∧
      ((s.stashTakes (shadowAddr s (fieldAt b 8 8))).isSome = true → t.ports = s.ports)

def Obligations.JournalReclaimsRetriesAndScans : Prop :=
  Claims.ReclaimPassesOrCarries ∧
    Claims.TailMovesBySixteenthsOfTheRing ∧
    Claims.RetriesPresentTheWriteAgain ∧
    Claims.ScanEndBeginsTheWaitingItems

def Obligations.TwinPointsHandshakeAndShadow : Prop :=
  Claims.TwinPointNeverFalls ∧ Claims.TwinLossIsNoticed ∧ Claims.TwinHandshake ∧ Claims.ShippedRecordsAreWrittenToTheShadow

/-! ## The modes, reset, and the channel states -/

/-- The request at the front of CTL's queue, which has had no effect yet, is a WRITE of value v to an object, and it passes the checks of R389 that stand
before the object's own. -/
def Sys2Proof.Claims.writes (s : State) (r : Request) (i sub v : Nat) : Prop :=
  s.ctl.waiting.head? = some r ∧ s.ctl.acted = false ∧ s.pool.jobs.contains .answer = false ∧ r.service = 2 ∧ r.index = i ∧
    r.sub = sub ∧ r.value = v ∧ r.formRefuses = none ∧ s.objectRefuses r = none

/-- A write whose effect stands has returned with its answer: nothing is held for its response any more. -/
def Sys2Proof.Claims.answered (t : State) (r : Request) : State :=
  ({ t with ctl := { t.ctl with acted := false, due := none, after := .none } } : State).answerRequest r 0 []

/-- The write of a value has had its effect, and JRN writes what is to precede its response: the value comes into force with that
response (R270, R283, R381). -/
def Sys2Proof.Claims.comes (s t : State) (i sub v : Nat) : Prop :=
  t.ctl.acted = true ∧ t.ctl.due = some (i, sub, v) ∧ t.ctl.waiting = s.ctl.waiting

/-- The request at the front is a write to an object that has had its effect, and the writes of JRN and of POOL that precede its response
are done: the response returns, and with it the value of an object comes into force (R381). -/
def Sys2Proof.Claims.returns (s : State) (r : Request) (i sub v : Nat) : Prop :=
  s.ctl.waiting.head? = some r ∧ r.service = 2 ∧ r.index = i ∧ s.ctl.acted = true ∧ s.ctl.due = some (i, sub, v) ∧
    s.upkeepBusy = false ∧ s.pool.jobs.contains .answer = false

/-- HALT, CONFIG, RECOVER, FLOW, DRAIN and SURVEY: a write of MODE from a mode that R57 allows enters the mode. -/
def Sys2Proof.Claims.ModeWritesEnterTheirMode : Prop :=
  ∀ (s : State) (r : Request),
    (Claims.writes s r 0x2000 0 0 → s.ctl.mode = .config ∨ s.ctl.mode = .recover ∨ s.ctl.mode = .survey →
      ∃ t, exec .modeWriteHalt s = .next t ∧ t.ctl.mode = .halt) ∧
    (Claims.writes s r 0x2000 0 1 → s.ctl.mode = .halt → ∃ t, exec .modeWriteConfig s = .next t ∧ t.ctl.mode = .config) ∧
    (Claims.writes s r 0x2000 0 2 → s.ctl.mode = .config → s.journalValid = false → s.stagedAny = false → s.ctl.barred = 0 →
      ∃ t, exec .modeWriteFlow s = .next t ∧ t.ctl.mode = .flow) ∧
    (Claims.writes s r 0x2000 0 5 → s.ctl.mode.traffic = true →
      ∃ t, exec .modeWriteDrain s = .next t ∧ t.ctl.mode = .drain ∧ t.ctl.drainFrom = s.ctl.mode) ∧
    (Claims.writes s r 0x2000 0 6 → s.ctl.mode = .halt → s.journalValid = true →
      ∃ t, exec .modeWriteRecover s = .next t ∧ t.ctl.mode = .recover) ∧
    (Claims.writes s r 0x2000 0 7 → s.ctl.mode = .halt → s.journalValid = false →
      ∃ t, exec .modeWriteSurvey s = .next t ∧ t.ctl.mode = .survey ∧ t.ctl.surveyResult = 1 ∧ t.ctxs = [])

/-- KEEP and TWIN: the write waits while its EPOCH OPEN record, and before it in TWIN the handshake, is on its way; then the
anchor is written with STATE OPEN, and the mode is entered once that write is answered (R58, R59, R273, R281, R284). -/
def Sys2Proof.Claims.JournaledModesWaitForTheirEpoch : Prop :=
  ∀ (s : State) (r : Request) (l : List Request), s.ctl.waiting = r :: l → s.ctl.mode = .config →
    (Claims.writes s r 0x2000 0 3 → s.ctl.recoverStage = .none → s.journalValid = false → s.stagedAny = false →
      s.ctl.barred = 0 → s.entryRefusal = none → admits s .epoch = true →
      ∃ t, exec .modeWriteKeep s = .next t ∧ t.ctl.mode = .config ∧ t.ctl.recoverStage = .opening ∧ t.ctl.waiting = r :: l ∧
        t.jrn.epoch = s.jrn.epoch + 1) ∧
    (Claims.writes s r 0x2000 0 3 → s.ctl.recoverStage = .opening → s.openStands .keep = true →
      ∃ t, exec .modeWriteKeep s = .next t ∧ t.ctl.mode = .config ∧ t.ctl.recoverStage = .anchoring ∧ t.ctl.waiting = r :: l ∧
        t.jrn.anchorState = 1 ∧ t.jrn.anchorMode = 3 ∧ t.mem = s.mem) ∧
    (Claims.writes s r 0x2000 0 3 → s.ctl.recoverStage = .anchoring → s.upkeepBusy = false →
      ∃ t, exec .modeWriteKeep s = .next t ∧ t.ctl.mode = .keep ∧ t.ctl.recoverStage = .none) ∧
    (Claims.writes s r 0x2000 0 4 → s.ctl.recoverStage = .none → s.journalValid = false → s.stagedAny = false →
      s.ctl.barred = 0 → s.entryRefusal = none →
      ∃ t, exec .modeWriteTwin s = .next t ∧ t.ctl.mode = .config ∧ t.ctl.recoverStage = .handshake ∧ t.ctl.waiting = r :: l) ∧
    (Claims.writes s r 0x2000 0 4 → s.ctl.recoverStage = .opening → s.openStands .twin = true →
      ∃ t, exec .modeWriteTwin s = .next t ∧ t.ctl.mode = .config ∧ t.ctl.recoverStage = .anchoring ∧ t.ctl.waiting = r :: l ∧
        t.jrn.anchorState = 1 ∧ t.jrn.anchorMode = 4 ∧ t.mem = s.mem) ∧
    (Claims.writes s r 0x2000 0 4 → s.ctl.recoverStage = .anchoring → s.upkeepBusy = false →
      ∃ t, exec .modeWriteTwin s = .next t ∧ t.ctl.mode = .twin ∧ t.ctl.recoverStage = .none) ∧
    (∀ v i, (v = 3 ∧ i = .modeWriteKeep) ∨ (v = 4 ∧ i = .modeWriteTwin) → Claims.writes s r 0x2000 0 v →
      s.ctl.recoverStage = .anchoring → s.upkeepBusy = true → exec i s = .next s)

/-- A MODE write that R57's table does not allow is refused with 5000_0001h and leaves the mode: HALT from a mode but CONFIG, RECOVER
and SURVEY, CONFIG and RECOVER from any mode but HALT, FLOW, KEEP and TWIN from any mode but CONFIG, DRAIN from a mode that does not accept work,
SURVEY from any mode but HALT and CONFIG (R56, R57). -/
def Sys2Proof.Claims.ModeWritesOutsideTheTableAreRefused : Prop :=
  ∀ (s : State) (r : Request),
    (Claims.writes s r 0x2000 0 0 → s.ctl.mode ≠ .config → s.ctl.mode ≠ .recover → s.ctl.mode ≠ .survey →
      exec .modeWriteHalt s = .next (s.refuseRequest r 0x50000001)) ∧
    (Claims.writes s r 0x2000 0 1 → s.ctl.mode ≠ .halt →
      exec .modeWriteConfig s = .next (s.refuseRequest r 0x50000001)) ∧
    (Claims.writes s r 0x2000 0 5 → s.ctl.mode.traffic = false →
      exec .modeWriteDrain s = .next (s.refuseRequest r 0x50000001)) ∧
    (∀ v i, (v = 2 ∧ i = .modeWriteFlow) ∨ (v = 3 ∧ i = .modeWriteKeep) ∨ (v = 4 ∧ i = .modeWriteTwin) →
      Claims.writes s r 0x2000 0 v → s.ctl.mode ≠ .config → exec i s = .next (s.refuseRequest r 0x50000001)) ∧
    (Claims.writes s r 0x2000 0 6 → s.ctl.mode ≠ .halt →
      exec .modeWriteRecover s = .next (s.refuseRequest r 0x50000001)) ∧
    (Claims.writes s r 0x2000 0 7 → s.ctl.mode ≠ .halt → s.ctl.mode ≠ .config →
      exec .modeWriteSurvey s = .next (s.refuseRequest r 0x50000001))

/-- TWIN_ENTRY_LIMIT ends a mode write whose handshake found no ready twin: it is refused and CONFIG goes on (R58, R284). -/
def Sys2Proof.Claims.TwinEntryLimitRefusesTheModeWrite : Prop :=
  ∀ (s : State) (r : Request) (l : List Request), s.obj 0x9021 0 ≠ 0 → s.ctl.mode = .config →
    s.ctl.recoverStage = .handshake → s.twinIsReady = false → s.ctl.waiting = r :: l →
    ∃ t, exec .twinEntryLimit s = .next t ∧ t.ctl.mode = .config ∧ t.ctl.recoverStage = .none ∧ t.ctl.lastAbort = 0x50000001

/-- A write of DRAIN_TARGET outside DRAIN is held (R55): in force with its response, before which in KEEP and TWIN JRN writes the
image that holds it (R283, R381); DRAIN_END with nothing at work ends DRAIN in CONFIG or FLOW where the
target says so, holds for a stopped item, and goes on draining while something works (R61, R62). -/
def Obligations.DrainEndsAtItsTarget : Prop :=
  ∀ (s : State) (r : Request) (v : Nat),
    (Claims.writes s r 0x2001 0 v → s.ctl.mode ≠ .drain → s.journaled = false →
      ∃ t, exec .drainTargetWrite s = .next t ∧ t.ctl.drainTarget = v ∧ t.ctl.mode = s.ctl.mode) ∧
    (Claims.writes s r 0x2001 0 v → s.ctl.mode ≠ .drain → s.journaled = true →
      ∃ t, exec .drainTargetWrite s = .next t ∧ t.ctl.mode = s.ctl.mode ∧
        (t.ctl.drainTarget = v ∨ (Claims.comes s t 0x2001 0 v ∧ t.ctl.drainTarget = s.ctl.drainTarget))) ∧
    (Claims.returns s r 0x2001 0 v → s.ctl.mode ≠ .drain →
      ∃ t, exec .drainTargetWrite s = .next t ∧ t.ctl.drainTarget = v ∧ t.ctl.acted = false ∧ t.ctl.due = none) ∧
    (s.ctl.mode = .drain → s.ctl.recoverStage = .none → s.drainBusy = false → s.ctl.drainHeld ≠ 1 → s.stoppedItem = false →
      s.journaled = false → s.ctl.drainTarget = 1 ∨ s.ctl.drainTarget = 2 →
      ∃ t, exec .drainEnd s = .next t ∧ t.ctl.mode = modeOfCode s.ctl.drainTarget ∧ t.ctl.drainHeld = 0) ∧
    (s.ctl.mode = .drain → s.ctl.recoverStage = .none → s.drainBusy = false → s.ctl.drainHeld ≠ 1 → s.stoppedItem = true →
      s.ctl.drainTarget = 1 ∨ s.ctl.drainTarget = 2 →
      ∃ t, exec .drainEnd s = .next t ∧ t.ctl.mode = .drain ∧ t.ctl.drainHeld = 3) ∧
    (s.ctl.mode = .drain → s.ctl.recoverStage = .none → s.drainBusy = true →
      ∃ t, exec .drainEnd s = .next t ∧ t.ctl.mode = .drain ∧ t.ctl.drainHeld = 0)

/-- SURVEY_END enters CONFIG with the result; an island that failed is on the failed mask (R461, R462). -/
def Sys2Proof.Claims.SurveyEndEntersConfig : Prop :=
  ∀ (failed : Nat) (s : State), s.ctl.mode = .survey →
    ∃ t, exec (.surveyEnd failed) s = .next t ∧ t.ctl.mode = .config ∧
      t.ctl.surveyResult = (if (List.range 47).any (bitOf failed) then 3 else 2) ∧
      (∀ i, i < 47 → bitOf t.ctl.surveyFailed i = bitOf failed i) ∧
      (∀ i, i < 47 → (t.island i).testStatus = if bitOf failed i then 3 else 2)

/-- DEVICE_RESET: memory, the custodian keys and what waits in the queue stay; the straps are sampled; every context is
closed; and the device wakes in RECOVER where the anchor is live, else in HALT (R26, R69, R432). -/
def Sys2Proof.Claims.DeviceResetWakesByTheAnchor : Prop :=
  ∀ (x : Straps) (s : State), ∃ t, exec (.deviceReset x) s = .next t ∧ t.mem = s.mem ∧ t.straps = x ∧ t.pending = s.pending ∧
    t.ctxs = [] ∧ t.prot = { keyA := s.prot.keyA, keyB := s.prot.keyB } ∧ t.dict = {} ∧ t.sched = {} ∧ t.fab.nodeId = none ∧
    t.ctl.mode = (if anchorLive t.anchorNow then .recover else .halt)

/-- What reset leaves (R54, R55, R69): HALT, no context open, no galley, no key, no node identifier. -/
def Sys2Proof.Claims.ResetLeavesAHaltedDevice : Prop :=
  State.reset.ctl.mode = .halt ∧ (∀ c, (State.reset.ctx c).state = .closed) ∧ (∀ g, (State.reset.galley g).state = .absent) ∧
    State.reset.prot.keyA = none ∧ State.reset.prot.keyB = none ∧ State.reset.fab.nodeId = none ∧
    (∀ l, l < 24 → State.reset.lane l = 0) ∧ Tab.sortedFrom 0 State.reset.dict.staged = true ∧ State.reset.lane 24 = 1 ∧ State.reset.lane 25 = 1

/-- RECOVER waits for its twin without limit, sending its handshake again (R294), for each write that a step needs (R270), and for
the reads of a step whose port takes no access (R264, R270; assumption log 13);
once the OPEN record stands it writes the anchor, once the status areas and acceptance words are written POOL rebuilds its galleys,
and once none rebuilds any more it ends in the anchor's mode, or in DRAIN where the anchor says DRAINING or the epochs are used up
(R61, R191, R281, R292). -/
def Sys2Proof.Claims.RecoverEndsInTheAnchorsMode : Prop :=
  ∀ s : State, s.ctl.mode = .recover → s.unitWaits jrnIsland = false →
    (s.ctl.recoverStage = .handshake → s.twin.answer = none → exec .recover s = .next s.sendHello) ∧
    (s.ctl.recoverStage = .opening → s.jrn.inFlight = [] → s.jrn.anchorMode ≠ 4 →
      ∃ t, exec .recover s = .next t ∧ t.ctl.mode = .recover ∧ t.ctl.recoverStage = .anchoring ∧ t.mem = s.mem) ∧
    (s.ctl.recoverStage = .anchoring ∨ s.ctl.recoverStage = .restoring ∨ s.ctl.recoverStage = .voiding ∨
      s.ctl.recoverStage = .replaying → s.upkeepBusy = true → exec .recover s = .next s) ∧
    (s.ctl.recoverStage = .restoring → s.upkeepBusy = false →
      ∃ u : State, exec .recover s = .next u.poolRun ∧ u.ctl.recoverStage = .rebuilding ∧ u.ctl.mode = .recover ∧ u.mem = s.mem) ∧
    (s.ctl.recoverStage = .rebuilding → (s.pool.galleys.any fun e => e.2.state = .rebuilding) = true →
      exec .recover s = .next s.poolRun) ∧
    (s.ctl.recoverStage = .rebuilding → (s.pool.galleys.any fun e => e.2.state = .rebuilding) = false →
      s.readsWait s.slotReads = true → exec .recover s = .next s) ∧
    (s.ctl.recoverStage = .rebuilding → (s.pool.galleys.any fun e => e.2.state = .rebuilding) = false →
      s.readsWait s.slotReads = false → ∃ t, exec .recover s = .next t ∧ t.ctl.recoverStage = .none ∧
        t.ctl.mode = (if s.jrn.anchorState = 2 ∨ s.jrn.lastEpoch = true then .drain else s.recoverMode))

/-- HALT_COMPLETE, PAUSE_COMPLETE and ABORT_COMPLETE on a channel whose item has no data op under way and nothing in flight: the
halt and the pause are recorded in the context's fault record with their status, and an abort goes on to the steps of
R253 with ABORTED (R249, R251, R253, R267). -/
def Obligations.StopsAreReportedOnceDrained : Prop :=
  ∀ (c : Nat) (s : State) (it : Item) (l : List Item), c < 262144 → (s.ctx c).cached = true → (s.ctx c).items = it :: l →
    it.run = none → s.chanAccess c = false → s.poolBusy c = false →
    (∀ f, (s.ctx c).halting = true → (s.ctx c).state ≠ .aborting → (s.ctx c).faults = [f] →
      (it.counterOp.any fun k => decide (k.value ≠ 0) && k.issued) = false →
      ∃ t, exec (.haltComplete c) s = .next t ∧ t.mem = s.mem ∧ (t.ctx c).state = .halted ∧ (t.ctx c).halting = false ∧
        (t.ctx c).record.status = f.status.code ∧ (t.ctx c).record.address = f.address ∧ (t.ctx c).record.seq = it.seq ∧
        Tab.get zeroTab t.ctl.eventCount 1 = satAdd u32Max (Tab.get zeroTab s.ctl.eventCount 1) 1) ∧
    ((s.ctx c).state = .pausing → (s.ctx c).halting = false → it.counterOp = none → it.opDone = false → it.ended = false →
      ∃ t, exec (.pauseComplete c) s = .next t ∧ t.mem = s.mem ∧ (t.ctx c).state = .paused ∧ (t.ctx c).record.status = 2 ∧
        (t.ctx c).record.seq = it.seq) ∧
    ((s.ctx c).state = .aborting → it.ending = none → it.counterOp = none → s.journaled = false →
      ∃ t, exec (.abortComplete c) s = .next t ∧
        (t.item c).map (fun x => (x.endStatus, x.ending, x.words)) = some (0x1A, some .words, []))

def Obligations.ResetMeetsTheInvariants : Prop :=
  Claims.ResetMemoryHasTheForm ∧ Claims.ResetLeavesAHaltedDevice

def Obligations.ModeWritesEnterOrAreRefused : Prop :=
  Claims.ModeWritesEnterTheirMode ∧ Claims.ModeWritesOutsideTheTableAreRefused

def Obligations.JournaledModeEntriesWait : Prop :=
  Claims.JournaledModesWaitForTheirEpoch ∧ Claims.TwinEntryLimitRefusesTheModeWrite

def Obligations.SurveyResetAndRecover : Prop :=
  Claims.SurveyEndEntersConfig ∧ Claims.DeviceResetWakesByTheAnchor ∧ Claims.RecoverEndsInTheAnchorsMode

/-! ## Maltur and the dictionary -/

/-- Byte stuffing loses nothing: what the device sends between flags, read back, is the body (R371). -/
def Sys2Proof.Claims.StuffingRoundTrips : Prop := ∀ l : List Byte, unstuff (stuff l) = some (l, false)

/-- A body that the device sends, read by the request layout that R370 and R372 share, gives every field back, and its CRC
checks: for every service but a SEG-READ's code, with every field at every value it admits. -/
def Sys2Proof.Claims.BodiesReadBackAsTheyWereBuilt : Prop :=
  ∀ (route : Route) (a : Response), a.service < 256 → a.service ≠ 3 → a.txn < 256 → a.index < 65536 → a.sub < 256 →
    a.flags < 256 → a.offset < 2 ^ 32 → a.data.length ≤ 256 →
    requestOf route a.bytes = some { route := route, service := a.service, txn := a.txn, index := a.index, sub := a.sub,
                                     flags := a.flags, length := a.data.length, offset := a.offset, data := a.data }

/-- What a journal record of each kind may hold (R274, R275): each field in its range, the fields of other kinds unused. -/
def Sys2Proof.Claims.recordFits (r : Record) : Prop :=
  r.node < 4096 ∧ r.epoch < 2 ^ 32 ∧ r.pos < 2 ^ 64 ∧ r.ctx < 2 ^ 18 ∧ r.slotIndex < 2 ^ 32 ∧ r.seq < 2 ^ 64 ∧
    r.slotAddr < 2 ^ 64 ∧ r.ord < 2 ^ 32 ∧ r.old < 2 ^ 64 ∧ r.value < 2 ^ 64 ∧ r.group < 2 ^ 16 ∧ r.counter < 2 ^ 16 ∧
    r.opIndex < 2 ^ 8 ∧ r.block < 2 ^ 16 ∧ r.galley < 2 ^ 17 ∧ r.entries < 2 ^ 32 ∧ r.lowSeq < 2 ^ 64 ∧ r.highSeq < 2 ^ 64 ∧
    r.units < 2 ^ 32 ∧ r.event < 2 ^ 8 ∧ r.mode < 2 ^ 8 ∧ r.cause < 2 ^ 8 ∧ r.prevEpoch < 2 ^ 32 ∧ r.prevEnd < 2 ^ 64 ∧
    r.twin < 4096 ∧
    r = (match r.kind with
      | .accept => { kind := .accept, carried := r.carried, void := r.void, node := r.node, epoch := r.epoch, pos := r.pos,
                     ctx := r.ctx, slotIndex := r.slotIndex, seq := r.seq, slotAddr := r.slotAddr }
      | .complete => { kind := .complete, carried := r.carried, void := r.void, node := r.node, epoch := r.epoch, pos := r.pos,
                       ctx := r.ctx, slotIndex := r.slotIndex, seq := r.seq, statusArea := r.statusArea }
      | .counter => { kind := .counter, carried := r.carried, void := r.void, node := r.node, epoch := r.epoch, pos := r.pos,
                      ctx := r.ctx, seq := r.seq, ord := r.ord, old := r.old, value := r.value, group := r.group,
                      counter := r.counter, opIndex := r.opIndex, block := r.block }
      | .flush => { kind := .flush, carried := r.carried, void := r.void, node := r.node, epoch := r.epoch, pos := r.pos,
                    galley := r.galley, entries := r.entries, lowSeq := r.lowSeq, highSeq := r.highSeq, units := r.units }
      | .epoch => { kind := .epoch, carried := r.carried, void := r.void, node := r.node, epoch := r.epoch, pos := r.pos,
                    event := r.event, mode := r.mode, cause := r.cause, prevEpoch := r.prevEpoch, prevEnd := r.prevEnd,
                    twin := r.twin }) ∧
    (r.kind = .complete → r.statusArea.length = 16)

/-- A journal record written is the record read: the scan of R291 takes back every field of R274 and R275, and the record is
64 bytes. -/
def Obligations.JournalRecordsReadBack : Prop :=
  ∀ r : Record, Claims.recordFits r → recordOf r.bytes = some r ∧ r.bytes.length = 64

/-- MALTUR_FRAME: a whole request with a good CRC waits to be served, behind up to 16 others, and one more is discarded with an
event; a repeat of the one being served is dropped, and a frame that is none is discarded and counted. Of the byte port a
stuffed frame behind its flag is the request of its body, in every mode; of a node frames count but in HALT and in NODE_SPACE_FULL
(R315, R320, R369, R371, R373). -/
def Sys2Proof.Claims.MalturFramesAreQueued : Prop :=
  ∀ (n : Nat) (body : List Byte) (s : State),
    (∀ r, requestOf .bytePort body = some r → s.ctl.waiting = [] → s.ctl.lastAnswered = none → s.ctl.rx = none →
      exec (.malturFrame .bytePort (0x7E :: stuff body)) s = .next { s with ctl := { s.ctl with waiting := [r] } }) ∧
    (s.ctl.mode = .halt ∨ s.fab.nodeState = 2 → exec (.malturFrame (.node n) body) s = .next s) ∧
    (s.ctl.mode ≠ .halt → s.fab.nodeState ≠ 2 →
    (∀ r, requestOf (.node n) body = some r → s.ctl.waiting = [] → s.ctl.lastAnswered = none →
      exec (.malturFrame (.node n) body) s = .next { s with ctl := { s.ctl with waiting := [r] } }) ∧
    (∀ r q l, requestOf (.node n) body = some r → s.ctl.waiting = q :: l → r ≠ q → l.length < 16 →
      exec (.malturFrame (.node n) body) s = .next { s with ctl := { s.ctl with waiting := q :: l ++ [r] } }) ∧
    (∀ r q l, requestOf (.node n) body = some r → s.ctl.waiting = q :: l → r ≠ q → 16 ≤ l.length →
      exec (.malturFrame (.node n) body) s =
        .next (({ s with ctl := { s.ctl with discards := satAdd u32Max s.ctl.discards 1 } } : State).raise .malturOverrun)) ∧
    (∀ r l, requestOf (.node n) body = some r → s.ctl.waiting = r :: l → exec (.malturFrame (.node n) body) s = .next s) ∧
    (requestOf (.node n) body = none →
      exec (.malturFrame (.node n) body) s =
        .next { s with ctl := { s.ctl with discards := satAdd u32Max s.ctl.discards 1 } }))

/-- The request at the front, which has had no effect yet, is of a service and passes every check of R389; POOL owes no
answer. -/
def Sys2Proof.Claims.asks (s : State) (r : Request) (service : Nat) : Prop :=
  s.ctl.waiting.head? = some r ∧ s.ctl.acted = false ∧ s.pool.jobs.contains .answer = false ∧ r.service = service ∧
    r.formRefuses = none ∧ s.objectRefuses r = none

/-- READ of an RO or RW object answers its value, little-endian in its size, of a staged object the staged value with its flag,
of a string its bytes (R376, R382); the registers of a legacy slot answer while their owner is the dictionary (R437); a read of
ISLAND_STATE answers the state and clears FAULT (R337). -/
def Sys2Proof.Claims.ReadsAnswerTheValue : Prop :=
  ∀ (s : State) (r : Request) (o : ObjDef), Claims.asks s r 1 → objRow r.index r.sub = some o →
    (isSlotReg r.index r.sub = true → s.slotOwner (r.index - 0x8000) ≠ 1 → exec .read s = .next (s.refuseRequest r 0x50000001)) ∧
    ((isSlotReg r.index r.sub = true → s.slotOwner (r.index - 0x8000) = 1) →
      (o.cls = .ro ∨ o.cls = .rw → o.type ≠ .str → r.index ≠ 0x5101 → ¬ (r.index = 0x3000 ∧ r.sub ≠ 0) →
        exec .read s = .next (s.answerRequest r 0 (leBytes o.type.size (s.readObj r.index r.sub)))) ∧
      (o.cls = .rws ∨ o.cls = .rwc → o.type ≠ .str → r.index ≠ 0x5101 → r.index ≠ 0x3000 →
        exec .read s = .next (s.answerRequest r (if s.objNext r.index r.sub = s.obj r.index r.sub then 0 else 8)
          (leBytes o.type.size (s.objNext r.index r.sub)))) ∧
      (o.type = .str → exec .read s = .next (s.answerRequest r 0 (strBytes r.index)))) ∧
    (r.index = 0x3000 → r.sub ≠ 0 → o.cls = .ro → o.type ≠ .str →
      exec .islandStateRead s = .next ((s.setIsland (r.sub - 1) { s.island (r.sub - 1) with fault := false }).answerRequest r 0
        (leBytes 1 (s.readObj 0x3000 r.sub))))

/-- WRITE and OBJECT_WRITE: a value of an RWS or RWC object is staged, and one of an RW object is in force when the answer
returns, under the rules of KEEP and TWIN not before the configuration image is written that holds it (R283, R381, R382, R384). -/
def Sys2Proof.Claims.WritesAreStagedOrInForce : Prop :=
  ∀ (s : State) (r : Request) (o : ObjDef), Claims.asks s r 2 → r.plainWrite = true → objDef r.index r.sub = some o →
    (o.cls = .rws ∨ o.cls = .rwc →
      exec .objectWrite s = .next (Claims.answered (s.stage r.index r.sub (heldBits r.index r.value)) r) ∧
      exec .write s = exec .objectWrite s) ∧
    (o.cls = .rw → s.journaled = false →
      exec .objectWrite s = .next (Claims.answered (s.setObj r.index r.sub (heldBits r.index r.value)) r) ∧
      exec .write s = exec .objectWrite s) ∧
    (o.cls = .rw → s.journaled = true →
      ∃ t, exec .objectWrite s = .next t ∧ exec .write s = .next t ∧
        (t.obj r.index r.sub = heldBits r.index r.value ∨
          (Claims.comes s t r.index r.sub (heldBits r.index r.value) ∧ t.obj r.index r.sub = s.obj r.index r.sub)))

/-- COMMIT in CONFIG of staged values whose regions fit applies them all, and DISCARD drops them (R383, R385, R419). -/
def Obligations.CommitAppliesAndDiscardDrops : Prop :=
  ∀ (s : State) (r : Request),
    (Claims.writes s r 0x2F00 0 1 → s.ctl.mode = .config → s.ctl.rulePoint = none → s.stagedAny = true → s.regionsOk = true →
      s.pointReached = true → Tab.sortedFrom 0 s.dict.staged = true →
      ∃ t, exec .commit s = .next t ∧ t.dict.staged = [] ∧ t.dict.stagedSets = [] ∧ t.ctl.mode = .config ∧
        ∀ i j, t.obj i j = s.objNext i j) ∧
    (Claims.writes s r 0x2F01 0 1 →
      exec .discard s = .next
        (Claims.answered { s with dict := { s.dict with staged := [], stagedSets := [] } } r))

/-- SEG-READ answers the bytes of the object from OFFSET, with LAST at its end; SEG-WRITE into a type case under edit places
its bytes and leaves the others (R377, R225); the wait snapshot is taken at FIRST (R396). -/
def Sys2Proof.Claims.SegmentsReadAndWriteTheirObject : Prop :=
  ∀ (s : State) (r : Request),
    (Claims.asks s r 3 → r.index ≠ 0xA800 →
      exec .segRead s = .next (s.answerRequest r
        (if (s.domain r.index r.sub).length ≤ r.offset + r.length then 2 else 0)
        (((s.domain r.index r.sub).drop r.offset).take r.length))) ∧
    (Claims.asks s r 3 → r.index = 0xA800 → r.first = true → r.offset = 0 →
      ∃ t, exec .waitSnapshotRead s = .next t ∧ t.mem = s.mem ∧ t.ctl.waitSnapshot = s.takeSnapshot.ctl.waitSnapshot) ∧
    (Claims.asks s r 4 → r.index = 0x4040 → (s.port (r.sub - 1)).casePending = false → s.journaled = false →
      exec .segWrite s = .next (Claims.answered (s.setPort (r.sub - 1) { s.port (r.sub - 1) with
        caseEdit := Tab.putAll slotByteDefault (s.port (r.sub - 1)).caseEdit (placed r.offset r.data) }) r))

/-- An answer leaves the queue and is kept for a repeat of its request; a refusal answers ABORT with its code (R372, R373,
R389). A write that has had its effect is answered once the writes of JRN and of POOL that it needs are done, and with the answer its
value is in force (R164, R270, R283, R381). The queue holds no repeat of the request here. -/
def Sys2Proof.Claims.AnswersLeaveTheQueue : Prop :=
  ∀ (s : State) (r : Request) (l : List Request) (flags code : Nat) (data : List Byte), s.ctl.waiting = r :: l → ¬ r ∈ l →
    (s.answerRequest r flags data).ctl.waiting = l ∧
      (((s.answerRequest r flags data).ctl.lastAnswered.map fun x => (x.1, x.2.flags, x.2.data, x.2.service)) =
        some (r, flags, data, r.service % 128 + 128)) ∧
      (s.refuseRequest r code).ctl.lastAbort = code ∧
      ((s.refuseRequest r code).ctl.lastAnswered.map fun x => (x.2.flags, x.2.data)) = some (4, leBytes 4 code) ∧
      (s.ctl.acted = true → r.plainWrite = true →
        (s.upkeepBusy = true ∨ s.pool.jobs.contains .answer = true → exec .objectWrite s = .next s.poolRun) ∧
        (s.upkeepBusy = false → s.pool.jobs.contains .answer = false →
          ∃ t, exec .objectWrite s = .next t ∧ t.mem = s.mem ∧ t.ctl.acted = false ∧ t.ctl.due = none ∧
            (∀ i sub v, s.ctl.due = some (i, sub, v) → actingObjects.contains i = false → isSlotReg i sub = false →
              t.ctl.waiting = l ∧ t.obj i sub = v)))

/-- NOTIFY of an event that is due one sends one frame with its number, the count of its raises since the last one and the mode, and
begins the count anew; one that is not due sends none (R379). -/
def Sys2Proof.Claims.NotifyReportsAndClearsItsCount : Prop :=
  ∀ (event : Nat) (route : Route) (s : State), s.notifyRoute = some route →
    (Tab.get zeroTab s.ctl.notifyDue event = 0 → exec (.notify event) s = .next s) ∧
    (Tab.get zeroTab s.ctl.notifyDue event ≠ 0 →
      ∃ t, exec (.notify event) s = .next t ∧ t.mem = s.mem ∧ t.ctl.notifyCount = s.ctl.notifyCount + 1 ∧
        Tab.get zeroTab t.ctl.notifyDue event = 0 ∧ Tab.get zeroTab t.ctl.notifyPending event = 0 ∧
        (route = .bytePort → ∃ f, t.ctl.output = s.ctl.output ++ [0x7E :: stuff f] ∧ fieldAt f 0 1 = 6 ∧
          fieldAt f 1 1 = s.ctl.notifyCount % 256 ∧ fieldAt f 12 2 = event % 65536 ∧
          fieldAt f 14 2 = Tab.get zeroTab s.ctl.notifyPending event % 65536 ∧ fieldAt f 16 1 = s.ctl.mode.code))

/-- The staged values are in rising order of their object, one to an object: every step keeps it (the model's form of the staging
that R382 describes, assumed by the statement on COMMIT). -/
def Obligations.EveryStepKeepsTheStagedOrder : Prop :=
  ∀ s t : State, Tab.sortedFrom 0 s.dict.staged = true → step s = .next t → Tab.sortedFrom 0 t.dict.staged = true

def Obligations.MalturBodiesReadBack : Prop :=
  Claims.StuffingRoundTrips ∧ Claims.BodiesReadBackAsTheyWereBuilt

def Obligations.RequestsAreQueuedAnsweredAndNotified : Prop :=
  Claims.MalturFramesAreQueued ∧ Claims.AnswersLeaveTheQueue ∧ Claims.NotifyReportsAndClearsItsCount

def Obligations.ReadsAndWritesServeTheDictionary : Prop :=
  Claims.ReadsAnswerTheValue ∧ Claims.WritesAreStagedOrInForce ∧ Claims.SegmentsReadAndWriteTheirObject

/-! ## The objects that act -/

/-- CREATE with a definition out of its range is refused with 4000_0002h, and at a galley that exists, without a pool, or without shared
cells for its reservation with 5000_0001h; else the galley is active, empty and as defined, and POOL is to write its descriptor (R164,
R165). FLUSH of an absent or rebuilding galley, and DELETE of an absent one, are refused; without a journal the poppable entries and the
open units go, held entries stay, and a galley deleted with nothing held is absent at once; with one, the FLUSH record is issued and the
answer waits for it (R166, R187, R189). A seal under way comes first. POOL goes on from u. -/
def Obligations.GalleyCommandsCreateFlushAndDelete : Prop :=
  ∀ (s : State) (r : Request) (g : Nat), s.selGalley = g → s.ctl.holdPos = none → s.ctl.mode.galleyMode = true →
    (let y := s.galley g
     let packet := s.obj 0x7011 1 = 1
     let legal := s.obj 0x7011 1 ≤ 1 ∧ (packet ∨ (8 ≤ s.obj 0x7011 2 ∧ s.obj 0x7011 2 ≤ 992))
     let room := y.state = .absent ∧ s.poolCells ≠ 0 ∧ s.obj 0x7011 3 ≤ s.sharedFree
     (Claims.writes s r 0x7012 0 1 →
       (¬ legal → exec .galleyCreate s = .next (s.refuseRequest r 0x40000002)) ∧
       (legal → ¬ room → exec .galleyCreate s = .next (s.refuseRequest r 0x50000001)) ∧
       (legal → room → ∃ u t : State, exec .galleyCreate s = .next t ∧ t.mem = s.mem ∧ t.pool = u.poolRun.pool ∧
         (u.galley g).state = .active ∧ (u.galley g).packet = decide packet ∧
         (u.galley g).width = (if packet then 0 else s.obj 0x7011 2) ∧ (u.galley g).reserve = s.obj 0x7011 3 ∧
         (u.galley g).limit = s.obj 0x7011 4 ∧ (u.galley g).entries = [] ∧ (u.galley g).units = [] ∧
         u.pool.jobs = s.pool.jobs ++ [.desc g false] ++ if s.journaled then [.answer] else [])) ∧
     (Claims.writes s r 0x7012 0 2 →
       (y.state = .absent ∨ y.state = .rebuilding → exec .galleyFlush s = .next (s.refuseRequest r 0x50000001)) ∧
       (y.state ≠ .absent → y.state ≠ .rebuilding → y.sealing = none → s.journaled = false →
         ∃ u t : State, exec .galleyFlush s = .next t ∧ t.mem = s.mem ∧ t.pool = u.poolRun.pool ∧
           (u.galley g).entries = y.held ∧ (u.galley g).units = [] ∧ (u.galley g).flushes = satAdd u32Max y.flushes 1) ∧
       (y.state ≠ .absent → y.state ≠ .rebuilding → y.sealing = none → s.journaled = true → admits s .flush = true →
         ∃ u t : State, exec .galleyFlush s = .next t ∧ t.mem = s.mem ∧ t.pool = u.poolRun.pool ∧
           (u.galley g).entries = y.held ∧ (u.galley g).units = [] ∧ t.ctl.waiting = s.ctl.waiting ∧
           t.ctl.holdPos = some s.jrn.head ∧ t.jrn.head = s.jrn.head + 1) ∧
       (y.state ≠ .absent → y.state ≠ .rebuilding → y.sealing ≠ none → exec .galleyFlush s = .next s.poolRun)) ∧
     (Claims.writes s r 0x7012 0 3 →
       (y.state = .absent → exec .galleyDelete s = .next (s.refuseRequest r 0x50000001)) ∧
       (y.state ≠ .absent → y.sealing = none → s.journaled = false →
         ∃ u t : State, exec .galleyDelete s = .next t ∧ t.mem = s.mem ∧ t.pool = u.poolRun.pool ∧
           (u.galley g).state = (if y.held = [] then .absent else .deleting) ∧
           (u.galley g).entries = y.held ∧ (u.galley g).units = [])))

/-- PAUSE of an idle channel pauses it and of a running one lets it drain; RESUME of a paused channel without an item makes
it idle; ABORT of a channel with an item in progress begins the abort (R248, R250, R252, R253). -/
def Sys2Proof.Claims.ChannelCommandsMoveTheChannel : Prop :=
  ∀ (s : State) (r : Request), s.ctl.mode.traffic = true →
    (Claims.writes s r 0xC001 0 1 → (s.ctx s.selCtx).state = .idle →
      ∃ t, exec .channelPause s = .next t ∧ t.mem = s.mem ∧ (t.ctx s.selCtx).state = .paused ∧
        (t.ctx s.selCtx).pauseBit = true) ∧
    (∀ it l, Claims.writes s r 0xC001 0 1 → (s.ctx s.selCtx).state = .running → (s.ctx s.selCtx).items = it :: l →
      it.ending = none →
      ∃ t, exec .channelPause s = .next t ∧ t.mem = s.mem ∧ (t.ctx s.selCtx).state = .pausing) ∧
    (Claims.writes s r 0xC001 0 2 → (s.ctx s.selCtx).state = .paused → (s.ctx s.selCtx).headerHalt = false →
      (s.ctx s.selCtx).items = [] → (s.ctx s.selCtx).producer = BitVec.ofNat 32 (s.nextSlot s.selCtx) →
      ∃ t, exec .channelResume s = .next t ∧ t.mem = s.mem ∧ (t.ctx s.selCtx).state = .idle ∧
        (t.ctx s.selCtx).pauseBit = false) ∧
    (∀ it l, Claims.writes s r 0xC001 0 3 → (s.ctx s.selCtx).state = .halted → (s.ctx s.selCtx).headerHalt = false →
      s.endFailed s.selCtx = false → (s.ctx s.selCtx).items = it :: l → it.ending = none →
      ∃ t, exec .channelAbort s = .next t ∧ t.mem = s.mem ∧ (t.ctx s.selCtx).state = .aborting ∧
        (t.ctx s.selCtx).abortStatus = (s.ctx s.selCtx).record.status)

/-- OPEN makes a closed context with a legal ring idle, its marks and indexes at 0; CLOSE of an idle one with no doorbell
undecided closes it, and its fault record ends; a field is written while the context is closed, CLASS and SHARE at any time, in force with
the response, behind the context image where a journal is configured, and is refused else (R267, R283, R381, R392, R393). -/
def Sys2Proof.Claims.ContextsOpenCloseAndTakeFields : Prop :=
  ∀ (s : State) (r : Request) (v : Nat),
    (Claims.writes s r 0xC003 0 1 → s.ctl.mode = .config ∨ s.ctl.mode.traffic = true → (s.ctx s.selCtx).state = .closed →
      (s.ctx s.selCtx).f.ringSize ≠ 0 → (s.ctx s.selCtx).f.slotSize ≠ 0 →
      (s.ctx s.selCtx).f.ringBase % (s.ctx s.selCtx).f.slotSize = 0 →
      4096 ≤ (s.ctx s.selCtx).f.adoptNode ∨ (s.ctx s.selCtx).f.adoptEpoch ≠ 0 →
      ∃ t, exec .contextOpen s = .next t ∧ (t.ctx s.selCtx).state = .idle ∧ (t.ctx s.selCtx).accepted = 0 ∧
        (t.ctx s.selCtx).completed = 0 ∧ (t.ctx s.selCtx).producer = 0 ∧ (t.ctx s.selCtx).consumer = 0 ∧
        (t.ctx s.selCtx).f = (s.ctx s.selCtx).f) ∧
    (Claims.writes s r 0xC003 0 2 → s.ctl.mode = .config ∨ s.ctl.mode.traffic = true ∨ s.ctl.mode = .drain →
      (s.ctx s.selCtx).state = .idle → (s.ctx s.selCtx).items = [] → (s.ctx s.selCtx).early = [] →
      (s.ctx s.selCtx).bells = [] → (s.ctx s.selCtx).accepting = [] → (s.ctx s.selCtx).late = [] →
      ∃ t, exec .contextClose s = .next t ∧ (t.ctx s.selCtx).state = .closed ∧ (t.ctx s.selCtx).record = {}) ∧
    (∀ sub, Claims.writes s r 0xC000 sub v →
      ((s.ctx s.selCtx).state = .closed ∨ sub = 7 ∨ sub = 8 →
        ∃ t, exec .contextFieldWrite s = .next t ∧
          ((t.ctx s.selCtx).f = (s.ctx s.selCtx).f.write sub v ∨
            (ringRecords s ≠ 0 ∧ Claims.comes s t 0xC000 sub v ∧ (t.ctx s.selCtx).f = (s.ctx s.selCtx).f)) ∧
          (t.ctx s.selCtx).accepted = (s.ctx s.selCtx).accepted ∧ (t.ctx s.selCtx).state = (s.ctx s.selCtx).state) ∧
      (Claims.returns s r 0xC000 sub v →
        ∃ t, exec .contextFieldWrite s = .next t ∧ t.mem = s.mem ∧ (t.ctx s.selCtx).f = (s.ctx s.selCtx).f.write sub v ∧
          t.ctl.acted = false) ∧
      ((s.ctx s.selCtx).state ≠ .closed → sub ≠ 7 → sub ≠ 8 →
        exec .contextFieldWrite s = .next (s.refuseRequest r 0x50000001)))

/-- JRN, which has no upkeep write under way and waits for nothing, has presented one of the bytes at the port of their address, behind
the writes that wait there; no stash port takes it. -/
def Sys2Proof.Claims.upkeepPresented (s t : State) (a : Nat) (bs : List Byte) : Prop :=
  ∀ p, s.portOf a = some p → s.stashTakes a = none → s.upkeepBusy = false → s.unitWaits jrnIsland = false →
    ∃ q, (t.port p).wr.queue = (s.port p).wr.queue ++ [q] ∧ q.owner = .upkeep ∧
    q.beats.flatMap (·.data) = placed a bs

/-- FORMAT, FORMAT with discard, and TAKEOVER. FORMAT is refused where the anchor lies outside every range, outside CONFIG, and, for a
value of 1, while a valid journal exists; else JRN writes the anchor with EPOCH 0, STATE CLOSED and TAIL 0, and the journal is empty at
position 0 (R65, R298). TAKEOVER is refused in HALT and SURVEY; 1 freezes the shadow for its readers with what it holds, once, and 2 ends
the takeover and clears the shadow, whose anchor JRN overwrites (R295, R298). -/
def Sys2Proof.Claims.FormatAndTakeoverActOnTheirJournal : Prop :=
  ∀ (s : State) (r : Request) (v : Nat) (i : Instr),
    (Claims.writes s r 0x9006 0 v → (v = 1 ∧ i = .format) ∨ (v = 2 ∧ i = .formatDiscard) →
      (s.regionOk (anchorAddr s) 64 = false → exec i s = .next (s.refuseRequest r 0x40000002)) ∧
      (s.regionOk (anchorAddr s) 64 = true →
        (s.ctl.mode ≠ .config ∨ (v = 1 ∧ s.journalValid = true) → exec i s = .next (s.refuseRequest r 0x50000001)) ∧
        (s.ctl.mode = .config → v = 2 ∨ s.journalValid = false → s.jrn.inFlight = [] →
          ∃ t, exec i s = .next t ∧ t.mem = s.mem ∧ t.jrn.head = 0 ∧ t.jrn.tail = 0 ∧ t.jrn.epoch = 0 ∧ t.jrn.anchorState = 0 ∧
            t.jrn.log = [] ∧ Claims.upkeepPresented s t (anchorAddr s) (anchorBytes t)))) ∧
    ((v = 1 ∧ i = .takeoverFreeze) ∨ (v = 2 ∧ i = .takeoverEnd) →
      (s.ctl.mode = .halt ∨ s.ctl.mode = .survey → s.ctl.waiting.head? = some r → s.ctl.acted = false →
        s.pool.jobs.contains .answer = false → r.service = 2 → r.index = 0x9040 → r.sub = 0 → r.value = v → r.formRefuses = none →
        exec i s = .next (s.refuseRequest r 0x50000001)) ∧
      (Claims.writes s r 0x9040 0 v →
        ((v = 1 ∧ s.twin.takeover ≠ 0) ∨ (v = 2 ∧ s.twin.takeover = 0) → exec i s = .next (Claims.answered s r)) ∧
        (v = 1 → s.twin.takeover = 0 →
          ∃ t, exec i s = .next t ∧ t.mem = s.mem ∧ t.twin.takeover = 2 ∧ t.twin.shadowHeld = s.twin.shadowHeld ∧
            t.twin.pendingItems = (pendingOf s.shadowRecords).flatMap pendingEntry ∧
            t.twin.lostEpoch = s.shadowRecords.foldl (fun m r => max m r.epoch) 0) ∧
        (v = 2 → s.twin.takeover ≠ 0 →
          ∃ t, exec i s = .next t ∧ t.mem = s.mem ∧ t.twin.takeover = 0 ∧ t.twin.shadowHeld = false ∧ t.twin.pendingItems = [] ∧
            Claims.upkeepPresented s t (shadowBase s - 0x40) (leBytes 64 0))))

/-- TYPE_CASE_COMMIT: a table with a byte that R225 does not allow, or a port whose commit is pending, refuses it for every port it names;
else both channels of each port of its mask are marked for the swap, and no other's (R225, R226). COUNTER_CLEAR zeroes the requester
counters of the ports of its mask, and of no other (R236). LINK_CTRL 1 takes its link down, and 0 lets one that may train again wait for
lock, with the response of the write, under the rules of KEEP and TWIN not before the configuration image is written (R283, R314, R335,
R381). RENUMBER outside CONFLICT is refused; in CONFLICT the node gives up its identifier and asks for another: the assigner
gives itself one, any other node sends ASSIGN toward the root (R319). -/
def Sys2Proof.Claims.PortAndLinkObjectsAct : Prop :=
  ∀ (s : State) (r : Request) (mask : Nat),
    (Claims.writes s r 0x4041 0 mask →
      (∀ p, p < 8 → bitOf mask p = true → (portCase (s.port p).caseEdit).all caseByteOk = false →
        exec .typeCaseCommit s = .next (s.refuseRequest r 0x40000002)) ∧
      ((∀ p, p < 8 → bitOf mask p = true → (portCase (s.port p).caseEdit).all caseByteOk = true) →
        (∀ p, p < 8 → bitOf mask p = true → (s.port p).casePending = true →
          exec .typeCaseCommit s = .next (s.refuseRequest r 0x50000001)) ∧
        ((∀ p, p < 8 → bitOf mask p = true → (s.port p).casePending = false) →
          ∃ t, exec .typeCaseCommit s = .next t ∧ t.mem = s.mem ∧
            ∀ p, p < 8 → (t.port p).rd.swapPending = (bitOf mask p || (s.port p).rd.swapPending) ∧
              (t.port p).wr.swapPending = (bitOf mask p || (s.port p).wr.swapPending) ∧
              (t.port p).caseEdit = (s.port p).caseEdit ∧ (t.port p).caseActive = (s.port p).caseActive))) ∧
    (Claims.writes s r 0xA22F 0 mask →
      ∃ t, exec .counterClear s = .next t ∧ t.mem = s.mem ∧
        ∀ p, p < 8 → (t.port p).grants = (if bitOf mask p then [] else (s.port p).grants) ∧
          (t.port p).waits = (if bitOf mask p then [] else (s.port p).waits) ∧
          (t.port p).longest = (if bitOf mask p then [] else (s.port p).longest)) ∧
    (∀ l, l < 16 →
      ((Claims.writes s r 0x6051 (l + 1) 1 ∧ s.journaled = false) ∨ Claims.returns s r 0x6051 (l + 1) 1 →
        1 ≤ (s.link l).state → (s.link l).state ≤ 5 →
        ∃ t, exec .linkCtrlWrite s = .next t ∧ t.mem = s.mem ∧ t.obj 0x6051 (l + 1) = 1 ∧ (t.link l).state = 4) ∧
      ((Claims.writes s r 0x6051 (l + 1) 0 ∧ s.journaled = false) ∨ Claims.returns s r 0x6051 (l + 1) 0 →
        (s.setObj 0x6051 (l + 1) 0).canTrain l = true → (s.link l).state = 0 ∨ (s.link l).state = 4 →
        ∃ t, exec .linkCtrlWrite s = .next t ∧ t.mem = s.mem ∧ t.obj 0x6051 (l + 1) = 0 ∧ (t.link l).state = 1) ∧
      (∀ v, Claims.writes s r 0x6051 (l + 1) v → s.journaled = true →
        ∃ t, exec .linkCtrlWrite s = .next t ∧ t.mem = s.mem ∧ (t.obj 0x6051 (l + 1) = v ∨ Claims.comes s t 0x6051 (l + 1) v))) ∧
    (Claims.writes s r 0x6002 0 1 →
      (s.fab.nodeState ≠ 3 → exec .renumber s = .next (s.refuseRequest r 0x50000001)) ∧
      (s.fab.nodeState = 3 →
        (let u : State := { s with fab := { s.fab with
           nodeState := 0, nodeId := none, assigned := s.fab.assigned.filter fun e => e.1 ≠ s.ownSerial
           adverts := Tab.erase s.ownSerial s.fab.adverts } }
         (∀ e, s.isRoot = false → s.parentLink = some e →
           ∃ t, exec .renumber s = .next t ∧ t.mem = s.mem ∧ t.fab.nodeId = none ∧ t.fab.nodeState = 0 ∧
             assignFrame false s.ownSerial (s.obj 0x6001 0) 4095 ∈ (t.link e.1).tx) ∧
         (∀ n, s.isRoot = true → u.idFor s.ownSerial (s.obj 0x6001 0) = some n →
           ∃ t, exec .renumber s = .next t ∧ t.mem = s.mem ∧ t.fab.nodeId = some n ∧ t.fab.nodeState = 1))))

/-- ISLAND_RESET puts an island but CTL into reset, a central one in CONFIG, and is refused for a central one in a traffic mode
(R352); RETIRE of a link, of a stash port that holds no tile or of TST puts it out of service, TEST begins the test of an island out of
service, TEST_END gives the result, and RETURN takes such an island or a memory port back into service where it may leave reset (R452,
R456, R458). -/
def Obligations.IslandServiceCommands : Prop :=
  ∀ (s : State) (r : Request) (i : Nat),
    (Claims.writes s r 0x3001 (i + 1) 1 → i ≠ 0 → i < 47 → isCentral i = false ∨ s.ctl.mode = .config →
      ∃ t, exec .islandReset s = .next t ∧ (t.island i).inReset = true) ∧
    (Claims.writes s r 0x3001 (i + 1) 1 → isCentral i = true → s.ctl.mode.traffic = true →
      exec .islandReset s = .next (s.refuseRequest r 0x50000001)) ∧
    (Claims.writes s r 0x3400 (i + 1) 1 → 26 ≤ i → i < 47 → (42 ≤ i → i < 46 → (s.stashPort (i - 42)).tiles = []) →
      s.outOfService i = false →
      ∃ t, exec .retire s = .next t ∧ t.mem = s.mem ∧ (t.island i).heldOut = true ∧ (t.island i).inReset = true) ∧
    (Claims.writes s r 0x3400 (i + 1) 2 → isCentral i = false → s.outOfService i = true → (s.island i).testStatus ≠ 1 →
      (s.island tstIsland).inReset = false → (s.island tstIsland).heldOut = false →
      ∃ t, exec .test s = .next t ∧ t.mem = s.mem ∧ (t.island i).testStatus = 1) ∧
    (∀ passed, i < 47 → (s.island i).testStatus = 1 → s.ctl.mode ≠ .survey →
      ∃ t, exec (.testEnd i passed) s = .next t ∧ t.mem = s.mem ∧ (t.island i).testStatus = if passed then 2 else 3) ∧
    (Claims.writes s r 0x3400 (i + 1) 3 → 18 ≤ i → i < 47 → isCentral i = false → s.outOfService i = true →
      (s.island i).testStatus ≠ 1 → (s.island i).clockPresent = true → (s.island i).pwrok = true →
      (s.island i).rstLow = false → (s.island i).pdreq = false →
      ∃ t, exec .returnIsland s = .next t ∧ t.mem = s.mem ∧ (t.island i).heldOut = false ∧ (t.island i).inReset = false)

/-- The protection unit: a key written whole in CONFIG is held, and until its last segment none is; a write of PROPOSED places its bytes,
without reserved bits, and it and a read of NONCE void both tags; a tag is taken only with a nonce, and the read gives the nonce it
issues (R9, R399, R400). -/
def Sys2Proof.Claims.KeysTagsAndNonce : Prop :=
  ∀ (s : State) (r : Request),
    (Claims.asks s r 4 → r.index = 0x5010 ∨ r.index = 0x5011 → s.ctl.mode = .config →
      ∃ t, exec .keyWrite s = .next t ∧ t.mem = s.mem ∧ t.prot.active = s.prot.active ∧
        (r.last = false → t.prot.keyA = s.prot.keyA ∧ t.prot.keyB = s.prot.keyB) ∧
        (r.last = true → r.first = true → r.index = 0x5010 →
          t.prot.keyA = some (patch (List.replicate (domainSize 0x5010) 0) r.offset r.data) ∧ t.prot.keyB = s.prot.keyB) ∧
        (r.last = true → r.first = true → r.index = 0x5011 →
          t.prot.keyB = some (patch (List.replicate (domainSize 0x5011) 0) r.offset r.data) ∧ t.prot.keyA = s.prot.keyA)) ∧
    (Claims.asks s r 4 → r.index = 0x5100 →
      ∃ t, exec .proposedWrite s = .next t ∧ t.mem = s.mem ∧ t.prot.nonce = none ∧ t.prot.tagA = none ∧ t.prot.tagB = none ∧
        t.prot.active = s.prot.active ∧ ∀ o, t.prot.proposedByte o =
          if r.offset ≤ o ∧ o < r.offset + r.data.length then r.data.getD (o - r.offset) 0 &&& imageMask o else s.prot.proposedByte o) ∧
    (Claims.asks s r 1 → r.index = 0x5101 → r.sub = 0 →
      ∃ t, exec .nonceRead s = .next t ∧ t.mem = s.mem ∧ t.prot.nonce = some (Config.nonce s.free) ∧ t.prot.tagA = none ∧
        t.prot.tagB = none ∧ t.free = s.free + 1) ∧
    (Claims.asks s r 4 → r.index = 0x5102 ∨ r.index = 0x5103 → s.prot.nonce = none →
      exec .tagWrite s = .next (s.refuseRequest r 0x60000003)) ∧
    (Claims.asks s r 4 → r.index = 0x5102 ∨ r.index = 0x5103 → s.prot.nonce ≠ none → r.last = true → r.first = true →
      ∃ t, exec .tagWrite s = .next t ∧ t.mem = s.mem ∧
        (r.index = 0x5102 → t.prot.tagA = some (patch (List.replicate (domainSize 0x5102) 0) r.offset r.data) ∧
          t.prot.tagB = s.prot.tagB) ∧
        (r.index = 0x5103 → t.prot.tagB = some (patch (List.replicate (domainSize 0x5103) 0) r.offset r.data) ∧
          t.prot.tagA = s.prot.tagA))

/-- PROTECT_COMMIT: the checks of R402 in their order each refuse and change nothing in force; with all passed, in a mode without
ops, PROPOSED becomes ACTIVE and the nonce is used up (R402 to R404). -/
def Sys2Proof.Claims.ProtectCommitChecksThenApplies : Prop :=
  ∀ (s : State) (r : Request), Claims.writes s r 0x5104 0 1 → s.prot.applying = false →
    (∀ code, s.protectRefusal = some code →
      ∃ t, exec .protectCommit s = .next t ∧ t.mem = s.mem ∧ t.prot.active = s.prot.active ∧ t.ctl.lastAbort = code ∧
        t.prot.keyA = s.prot.keyA ∧ t.prot.keyB = s.prot.keyB) ∧
    (s.protectRefusal = none → s.ctl.mode = .config → s.ctl.rulePoint = none →
      ∃ t, exec .protectCommit s = .next t ∧ t.prot.nonce = none ∧ t.prot.changes = satAdd u32Max s.prot.changes 1 ∧
        ∀ o, o < imageSize → t.prot.activeByte o = s.prot.proposedByte o)

def Obligations.ChannelsAndContextsAreCommanded : Prop :=
  Claims.ChannelCommandsMoveTheChannel ∧ Claims.ContextsOpenCloseAndTakeFields

def Obligations.FormatTakeoverPortsAndLinks : Prop :=
  Claims.FormatAndTakeoverActOnTheirJournal ∧ Claims.PortAndLinkObjectsAct

def Obligations.ProtectionTakesKeysAndCommits : Prop :=
  Claims.KeysTagsAndNonce ∧ Claims.ProtectCommitChecksThenApplies

/-! ## The legacy slots -/

/-- A window access of a slot in window mode: a write without START and ABORT lands in the shadow and is answered without error
(R436, R438, R442); START in a traffic mode on an IDLE or ENDED slot begins a run from the shadow with the fields of the
same write, and one that cannot begin sets START_IGNORED (R442, R443); ABORT on a RUNNING slot makes it ABORTING (R444,
R448); a window access of a dictionary's slot changes nothing and answers an error (R437). -/
def Sys2Proof.Claims.SlotsTakeWindowWrites : Prop :=
  ∀ (id k reg data : Nat) (s : State), k < 64 → s.portTakes id = true →
    (s.slotOwner k = 0 → (reg % 0x400 / 8 * 8 ≠ 0x18 ∨ (startBit data = false ∧ abortBit data = false)) →
      ∃ t, exec (.legacyShadowWrite (.window id) k reg data) s = .next t ∧ t.mem = s.mem ∧ t.ctxs = s.ctxs ∧
        t.slot k = (s.slot k).writeReg (reg % 0x400 / 8 * 8) data ∧
        (∀ j, j ≠ k → t.slot j = s.slot j) ∧
        t.sched.dbOut = s.sched.dbOut ++ [{ id := id, data := 0, err := false }]) ∧
    (s.slotOwner k = 0 → startBit data = true → s.ctl.mode.traffic = true → (s.slot k).state = 0 ∨ (s.slot k).state = 2 →
      ∃ t, exec (.legacyStart (.window id) k data) s = .next t ∧ t.mem = s.mem ∧ t.ctxs = s.ctxs ∧
        (t.slot k).state = 1 ∧ (t.slot k).startIgnored = false ∧ (t.slot k).ctrl = ctrlFields data ∧
        (t.slot k).workCtrl = ctrlFields data ∧ (t.slot k).workCount = (s.slot k).count ∧
        (t.slot k).src = (s.slot k).src ∧ (t.slot k).dst = (s.slot k).dst ∧ (∀ j, j ≠ k → t.slot j = s.slot j)) ∧
    (s.slotOwner k = 0 → startBit data = true → abortBit data = false → (s.slot k).state = 1 ∨ s.ctl.mode.traffic = false →
      ∃ t, exec (.legacyStart (.window id) k data) s = .next t ∧ t.mem = s.mem ∧ t.ctxs = s.ctxs ∧
        t.slot k = { s.slot k with ctrl := ctrlFields data, startIgnored := true }) ∧
    (s.slotOwner k = 0 → startBit data = false → abortBit data = true →
      ∃ t, exec (.legacyAbort (.window id) k data) s = .next t ∧ t.mem = s.mem ∧ t.ctxs = s.ctxs ∧
        t.slot k = (if (s.slot k).state = 1 then { s.slot k with ctrl := ctrlFields data, state := 3, stalled := none }
          else { s.slot k with ctrl := ctrlFields data })) ∧
    (s.slotOwner k = 1 → ∀ v, v = .legacyStart (.window id) k data ∧ startBit data = true ∨
        v = .legacyAbort (.window id) k data ∧ abortBit data = true →
      exec v s = .next ((s.takeAccess id).respond id 0 true))

/-- The dictionary's writes of its own slot: a register lands in the shadow with the write's response, before which in KEEP and TWIN
JRN writes the image that holds it (R283, R381), and a START that cannot begin a run is refused with 5000_0001h and stores nothing (R437,
R441, R443). -/
def Sys2Proof.Claims.SlotsTakeDictionaryWrites : Prop :=
  ∀ (k reg data : Nat) (r : Request) (s : State), k < 64 → s.slotOwner k = 1 →
    (let i := 0x8000 + k
     let sub := reg / 8 + 2
     (Claims.writes s r i sub data →
       (s.journaled = false →
         (reg ∈ [0, 8, 0x10] → exec (.legacyShadowWrite .dictionary k reg data) s =
           .next (Claims.answered (s.setSlot k ((s.slot k).writeReg reg data)) r)) ∧
         (reg = 0x18 → startBit data = true → abortBit data = false → s.canStart k = true →
           ∃ t, exec (.legacyStart .dictionary k data) s = .next t ∧ (t.slot k).state = 1 ∧
             (t.slot k).workCtrl = ctrlFields data) ∧
         (reg = 0x18 → startBit data = false → abortBit data = true → (s.slot k).state = 1 →
           ∃ t, exec (.legacyAbort .dictionary k data) s = .next t ∧ (t.slot k).state = 3)) ∧
       (s.journaled = true → reg ∈ [0, 8, 0x10] →
         ∃ t, exec (.legacyShadowWrite .dictionary k reg data) s = .next t ∧
           (t.slot k = (s.slot k).writeReg reg data ∨ (Claims.comes s t i sub data ∧ t.slot k = s.slot k))) ∧
       (s.journaled = true → reg = 0x18 → startBit data = true → abortBit data = false → s.canStart k = true →
         ∃ t, exec (.legacyStart .dictionary k data) s = .next t ∧
           ((t.slot k).state = 1 ∨ (Claims.comes s t i sub data ∧ t.slot k = s.slot k))) ∧
       (reg = 0x18 → startBit data = true → abortBit data = false → s.canStart k = false →
         exec (.legacyStart .dictionary k data) s = .next (s.refuseRequest r 0x50000001))) ∧
     (Claims.returns s r i sub data → r.sub = sub → r.value = data →
       (reg ∈ [0, 8, 0x10] → ∃ t, exec (.legacyShadowWrite .dictionary k reg data) s = .next t ∧
         t.slot k = (s.slot k).writeReg reg data ∧ t.ctl.acted = false) ∧
       (reg = 0x18 → startBit data = true → abortBit data = false → s.canStart k = true →
         ∃ t, exec (.legacyStart .dictionary k data) s = .next t ∧ (t.slot k).state = 1) ∧
       (reg = 0x18 → startBit data = false → abortBit data = true → (s.slot k).state = 1 →
         ∃ t, exec (.legacyAbort .dictionary k data) s = .next t ∧ (t.slot k).state = 3)))

/-- LEGACY_RUN_END of a slot with nothing in flight: a run of no bytes ends DONE_ZERO, one whose checks failed with their status, an
aborted one ABORTED, and one whose every segment is complete DONE with REMAINING 0; EVT is posted where CTRL asks for it
(R445, R446, R447, R448). -/
def Sys2Proof.Claims.SlotRunsEnd : Prop :=
  ∀ (k : Nat) (s : State), s.chanAccess (legacyBase + k) = false → bitOf (s.slot k).workCtrl 11 = true →
    s.postFull schedIsland (bitsOf (s.slot k).workCtrl 12 4) = false →
    (let w := bitsOf (s.slot k).workCtrl 12 4
     let ends (code left : Nat) : Prop := ∃ t, exec (.legacyRunEnd k) s = .next t ∧ t.mem = s.mem ∧ (t.slot k).state = 2 ∧
       (t.slot k).code = code ∧ (t.slot k).remaining = left ∧ (t.slot k).run = none ∧
       t.postsOf schedIsland w = s.postsOf schedIsland w + 1
     ((s.slot k).state = 1 → (s.slot k).run = none → (s.slot k).faults = [] → ends 1 0) ∧
     (∀ f l, (s.slot k).state = 1 → (s.slot k).run = none → (s.slot k).faults = f :: l → ends f.status.code (s.slot k).workCount) ∧
     ((s.slot k).state = 3 → (s.slot k).run = none → ends 0x1A (s.slot k).workCount) ∧
     (∀ r a b, (s.slot k).state = 1 → (s.slot k).run = some r → r.op = .move a b → r.segs = [] → r.phase = .data →
       r.total ≤ r.cut → (s.slot k).faults = [] → ends 0 0)) ∧
    ((s.slot k).state ≠ 1 → (s.slot k).state ≠ 3 → exec (.legacyRunEnd k) s = .next s)

def Obligations.LegacySlotsRunTheirTransfers : Prop :=
  Claims.SlotsTakeWindowWrites ∧ Claims.SlotsTakeDictionaryWrites ∧ Claims.SlotRunsEnd

/-! ## Links and nodes -/

/-- LINK_LOCK takes a link that is down and may train to step 1 of R313, and one that may not train keeps the lock alone. LINK_BLOCK: a
link without lock, and one in step 1, answer with FILL; of one in step 1, four good blocks in a row end block lock, and a bad one begins
the count again (R313, R429). HAREBELL: a good beacon brings a link that trains up, or to PEER_NO_ID where its neighbour has no identifier, with its
neighbour, its NUMBERs at 0 and nothing to replay; of an up link it says what the neighbour is now; the lowest serial heard of is the
assigner's, unless it is known to have departed (R313, R316; that last is the model's, assumption log 100). HAREBELL_SEND queues the node's beacon, and each tenth ends a millisecond of R314's count. LINK_LOCK_LOSS
puts a link's island in reset, and with it, as with the missing beacons, a link that trains or is up goes down, its replay buffer
empty; after BEACON_TIMEOUT it waits for lock again where it may train (R314). -/
def Sys2Proof.Claims.LinksTrainComeUpAndGoDown : Prop :=
  ∀ (l : Nat) (s : State),
    (s.canTrain l = true → (s.link l).state = 0 ∨ (s.link l).state = 4 →
      exec (.linkLock l) s = .next (s.setLink l { s.link l with lock := true, good := 0, state := 1 })) ∧
    (s.canTrain l = false ∨ ((s.link l).state ≠ 0 ∧ (s.link l).state ≠ 4) →
      exec (.linkLock l) s = .next (s.setLink l { s.link l with lock := true, good := 0 })) ∧
    (∀ b : List Byte, s.canTrain l = true → b.length = 1024 →
      ((s.link l).lock = false → exec (.linkBlock l b) s = .next (s.setLink l { s.link l with txBlock := (s.link l).idle })) ∧
      ((s.link l).lock = true → (s.link l).state = 1 →
        (blockGood b = false →
          exec (.linkBlock l b) s = .next (s.setLink l { s.link l with good := 0, txBlock := (s.link l).idle })) ∧
        (blockGood b = true → (s.link l).good < 3 → exec (.linkBlock l b) s =
          .next (s.setLink l { s.link l with good := (s.link l).good + 1, txBlock := (s.link l).idle })) ∧
        (blockGood b = true → (s.link l).good = 3 → ∃ t, exec (.linkBlock l b) s = .next t ∧ t = { s with fab := t.fab } ∧
          (t.link l).state = 2 ∧ (t.link l).errs = 0))) ∧
    (∀ b : Beacon, s.canTrain l = true →
      (let heard (t : State) : Prop := (t.link l).state = (if b.node = 4095 ∧ b.nodeState ≠ 1 then 5 else 3) ∧
         (t.link l).peerSerial = b.serial ∧ (t.link l).peerNode = b.node ∧ (t.link l).peerDist = b.rootDist ∧
         (t.link l).peerLink = b.link ∧ t.root ≤ b.serial ∧ (b.rootSerial ∉ s.fab.departed → t.root ≤ b.rootSerial)
       ((s.link l).state = 2 → ∃ t, exec (.harebell l b) s = .next t ∧ heard t ∧
         (t.link l).rxNumber = 0 ∧ (t.link l).txNumber = 0 ∧ (t.link l).replay = []) ∧
       ((s.link l).up = true → ∃ t, exec (.harebell l b) s = .next t ∧ t = { s with fab := t.fab } ∧ heard t ∧
         (t.link l).rxNumber = (s.link l).rxNumber))) ∧
    (s.canTrain l = true → (s.link l).state = 2 ∨ (s.link l).up = true →
      ∃ t, exec (.harebellSend l) s = .next t ∧ t = { s with fab := t.fab } ∧
        (t.link l).tx = (s.link l).tx ++ [beaconFrame (s.beaconNow l) s.nodeNum] ∧
        (t.link l).errs = if ((s.link l).beacons + 1) % 10 = 0 then 0 else (s.link l).errs) ∧
    ((s.link l).state = 2 ∨ (s.link l).up = true →
      (l < 16 → (s.island (linkIsland l)).inReset = false → (s.island (linkIsland l)).gated = false →
        ∃ t, exec (.linkLockLoss l) s = .next t ∧ t.mem = s.mem ∧ (t.island (linkIsland l)).inReset = true ∧
          (t.link l).state = 4 ∧ (t.link l).lock = false ∧ (t.link l).replay = [] ∧ (t.link l).txBlock = []) ∧
      (∃ t, exec (.beaconTimeout l) s = .next t ∧ t = { s with fab := t.fab } ∧
        (t.link l).state = (if s.canTrain l then 1 else 4) ∧ (t.link l).replay = []))

/-- LINK_BLOCK on a link that trains or is up takes in the block and sends one, unless more than LINK_ERR_LIMIT blocks have failed
their CRC within the millisecond, which takes the link down (R299, R314). Of an up link a block with the next NUMBER is accepted, one
with another NUMBER asks for a replay and is dropped, an IDLE block has no NUMBER, and one with a bad CRC is counted and asks for a
replay (R300, R301, R302). -/
def Sys2Proof.Claims.LinkBlocksAreAcceptedInOrder : Prop :=
  (∀ (l : Nat) (b : List Byte) (s : State), s.canTrain l = true → b.length = 1024 → (s.link l).lock = true →
    (s.link l).state = 2 ∨ (s.link l).up = true →
    (let k := (s.link l).receive s.fab.nodeId b
     (s.obj 0x6043 0 = 0 ∨ k.errs ≤ s.obj 0x6043 0 → exec (.linkBlock l b) s = .next (s.setLink l k.send)) ∧
     (s.obj 0x6043 0 ≠ 0 → s.obj 0x6043 0 < k.errs →
       ∃ t, exec (.linkBlock l b) s = .next t ∧ t = { s with fab := t.fab } ∧ (t.link l).state = 1 ∧ (t.link l).replay = []))) ∧
  ∀ (own : Option Nat) (k : Link) (b : List Byte), k.up = true →
    (blockGood b = false → (k.receive own b).crcErrors = satAdd u32Max k.crcErrors 1 ∧ (k.receive own b).errs = k.errs + 1 ∧
      (k.receive own b).nak = true ∧ (k.receive own b).rxNumber = k.rxNumber ∧ (k.receive own b).rx = k.rx) ∧
    (blockGood b = true → bitOf (fieldAt b 0x3F0 2) 13 = true →
      (k.receive own b).rxNumber = k.rxNumber ∧ (k.receive own b).nak = k.nak ∧ (k.receive own b).rx = k.rx) ∧
    (blockGood b = true → bitOf (fieldAt b 0x3F0 2) 13 = false → fieldAt b 0x3F0 2 % 4096 = (k.rxNumber + 1) % 4096 →
      (k.receive own b).rxNumber = fieldAt b 0x3F0 2 % 4096 ∧ (k.receive own b).nak = false) ∧
    (blockGood b = true → bitOf (fieldAt b 0x3F0 2) 13 = false → fieldAt b 0x3F0 2 % 4096 ≠ (k.rxNumber + 1) % 4096 →
      (k.receive own b).rxNumber = k.rxNumber ∧ (k.receive own b).nak = true ∧ (k.receive own b).rx = k.rx)

/-- What a frame may hold on a link (R303, R304): each field in its range, the payload in whole 16 B units. -/
def Sys2Proof.Claims.frameFits (f : Frame) : Prop :=
  f.type < 256 ∧ f.cls < 8 ∧ f.vl < 4 ∧ f.dest < 4096 ∧ f.hops < 16 ∧ f.src < 4096 ∧ f.tag < 65536 ∧ f.word < 2 ^ 51 ∧
    f.payload.length % 16 = 0 ∧ f.payload.length ≤ 64 * 16

/-- A frame sent on a link is the frame received: every header field and the payload read back, and the bytes behind it are
left (R303, R304). -/
def Obligations.FramesReadBack : Prop :=
  ∀ (f : Frame) (rest : List Byte), Claims.frameFits f → frameOf (frameBytes f ++ rest) = some (f, rest)

/-- ADVERT_SEND puts the node's advert under the next ADVERT_SEQ on every up link; a node in NODE_SPACE_FULL, or in HALT, sends none.
ADVERT on an up link: an advert newer than the one held is kept, and a node that forwards sends the frame that came on by its other up
links, with its SRC and one hop less, unless it is at HOPS 0, which drops and counts it (R303, R305); one that is not newer is not kept; one of a lower serial with this node's identifier puts the node in conflict; the node's own advert
from before a reset takes ADVERT_SEQ beyond it (R319, R320, R321). -/
def Sys2Proof.Claims.AdvertsAreKeptByTheirSequence : Prop :=
  ∀ (l : Nat) (a : Advert) (s : State),
    (s.ctl.mode ≠ .halt → s.fab.nodeState ≠ 2 →
      ∃ t, exec .advertSend s = .next t ∧ t = { s with fab := t.fab } ∧ t.fab.advertSeq = (s.fab.advertSeq + 1) % 2 ^ 32 ∧
        (t.fab.adverts.find? fun e => e.1 = s.ownSerial).map (·.2) = some (s.advertNow s.fab.advertSeq) ∧
        ∀ m, (s.link m).up = true → (t.link m).tx.getLast? = some (advertFrame (s.advertNow s.fab.advertSeq) s.nodeNum)) ∧
    (s.ctl.mode = .halt ∨ s.fab.nodeState = 2 → exec .advertSend s = .next s) ∧
    (s.ctl.mode ≠ .halt → (s.link l).up = true → a.serial ≠ s.ownSerial →
      ((s.fab.adverts.find? fun e => e.1 = a.serial).all (fun e => decide (e.2.seq < a.seq)) = true →
        ∃ t, exec (.advert l a) s = .next t ∧ t = { s with fab := t.fab, ctl := t.ctl } ∧
          (t.fab.adverts.find? fun e => e.1 = a.serial).map (·.2) = some a ∧
          (let g := s.rxFrame (advertFrame a a.node)
           (s.forwards = true → g.hops ≠ 0 → ∀ m, m ≠ l → ((s.takeRx g).link m).up = true →
             (t.link m).tx.getLast? = some { g with hops := g.hops - 1 }) ∧
           (s.forwards = true → g.hops = 0 → (t.link l).dropped = satAdd u32Max ((s.takeRx g).link l).dropped 1))) ∧
      (∀ e, (s.fab.adverts.find? fun e => e.1 = a.serial) = some e → a.seq ≤ e.2.seq →
        ∃ t, exec (.advert l a) s = .next t ∧ t = { s with fab := t.fab, ctl := t.ctl } ∧ t.fab.adverts = s.fab.adverts) ∧
      (s.fab.nodeState = 1 → s.fab.nodeId = some a.node → a.serial < s.ownSerial →
        ∃ t, exec (.advert l a) s = .next t ∧ t = { s with fab := t.fab, ctl := t.ctl } ∧ t.fab.nodeState = 3)) ∧
    (s.ctl.mode ≠ .halt → (s.link l).up = true → a.serial = s.ownSerial →
      (a.seq < s.fab.advertSeq → exec (.advert l a) s = .next (s.takeRx (s.rxFrame (advertFrame a a.node)))) ∧
      (s.fab.advertSeq ≤ a.seq → ∃ t, exec (.advert l a) s = .next t ∧ t = { s with fab := t.fab } ∧
        t.fab.advertSeq = (if s.fab.nodeState = 2 then a.seq + 1 else a.seq + 2) % 2 ^ 32)) ∧
    (s.ctl.mode = .halt ∨ (s.link l).up = false → exec (.advert l a) s = .next s)

/-- ASSIGN request: the assigner answers on the link it came in on with the identifier the serial has, its preferred one, or the lowest
free, and keeps it; another node that forwards sends the request that came on toward the root and keeps the link for the answer. ASSIGN
answer: the node takes the identifier given, or is in NODE_SPACE_FULL; an answer for another serial goes back by the link its request came
in on; each passes with its SRC and one hop less, and at HOPS 0 is dropped and counted (R303, R305).
ASSIGN_RETRY in NODE_SPACE_FULL asks again. ID_HOLD_EXPIRY: the assigner frees the identifier of a node it holds no advert of (R316,
R317, R318, R320). -/
def Sys2Proof.Claims.IdentifiersAreAssignedAndReleased : Prop :=
  ∀ (l serial preferred node : Nat) (s : State),
    (let passes (t : State) (f : Frame) (m : Nat) : Prop :=
       (f.hops ≠ 0 → (t.link m).tx.getLast? = some { f with hops := f.hops - 1 }) ∧
       (f.hops = 0 → (t.link l).dropped = satAdd u32Max ((s.takeRx f).link l).dropped 1)
     s.forwards = true →
      (s.isRoot = true → ∃ t, exec (.assignRequest l serial preferred) s = .next t ∧ t = { s with fab := t.fab } ∧
        (∀ n, s.idFor serial preferred = some n → (serial, n) ∈ t.fab.assigned) ∧
        (t.link l).tx.getLast? = some (assignFrame true serial (assignNode (s.idFor serial preferred)) s.nodeNum)) ∧
      (∀ e, s.isRoot = false → s.parentLink = some e →
        ∃ t, exec (.assignRequest l serial preferred) s = .next t ∧ t = { s with fab := t.fab } ∧
          (t.fab.returns.find? fun e => e.1 = serial) = some (serial, l) ∧
          passes t (s.rxFrame (assignFrame false serial preferred 4095)) e.1) ∧
      (∀ e st, serial ≠ s.ownSerial → (s.fab.returns.find? fun e => e.1 = serial) = some e →
        ∃ t, exec (.assignAnswer l serial node st) s = .next t ∧ t = { s with fab := t.fab } ∧
          passes t (s.rxFrame (assignFrame true serial (node % 4096 + st * 4096) s.rootNode)) e.2)) ∧
    (s.ctl.mode ≠ .halt → s.fab.nodeState = 0 ∨ s.fab.nodeState = 2 →
      (∃ t, exec (.assignAnswer l s.ownSerial node 1) s = .next t ∧ t.mem = s.mem ∧ t.fab.nodeId = some (node % 4096) ∧
        t.fab.nodeState = 1) ∧
      (∃ t, exec (.assignAnswer l s.ownSerial node 2) s = .next t ∧ t = { s with fab := t.fab, ctl := t.ctl } ∧
        t.fab.nodeId = none ∧ t.fab.nodeState = 2)) ∧
    (s.ctl.mode ≠ .halt → s.fab.nodeState = 2 →
      (∀ e, s.isRoot = false → s.parentLink = some e →
        exec .assignRetry s = .next (s.queueFrame e.1 (assignFrame false s.ownSerial (s.obj 0x6001 0) s.nodeNum))) ∧
      (∀ n, s.isRoot = true → s.idFor s.ownSerial (s.obj 0x6001 0) = some n →
        ∃ t, exec .assignRetry s = .next t ∧ t.mem = s.mem ∧ t.fab.nodeId = some n ∧ t.fab.nodeState = 1)) ∧
    (s.obj 0x6005 0 ≠ 0 → s.isRoot = true → serial ≠ s.ownSerial → (∀ e ∈ s.fab.adverts, e.1 ≠ serial) →
      ∃ t, exec (.idHoldExpiry serial) s = .next t ∧ t = { s with fab := t.fab } ∧
        t.fab.assigned = s.fab.assigned.filter fun e => e.1 ≠ serial)

/-- ROUTE_RECOMPUTE keeps the adverts of the nodes still present, names the assigner anew where it has left, whose serial it then keeps
as departed (the model's reading, assumption log 100), and replaces the route table (R316, R322). FRAME_FORWARD takes a frame for another node from its buffer: at HOPS 0, or with an unknown TYPE, on any lane, it is dropped
and counted; a node that forwards sends any other on: by the route table with one hop less, on the escape lane along the tree (R303, R305,
R311, R328). ESCAPE_WAIT moves a frame without credit to the escape lane where that has credit (R311). -/
def Sys2Proof.Claims.FramesAreForwardedByTheRouteTable : Prop :=
  ∀ (l : Nat) (f : Frame) (s : State),
    (∃ t, exec .routeRecompute s = .next t ∧ t.mem = s.mem ∧ t.fab.adverts = s.stillPresent ∧
      t.fab.rootSerial = s.rootNow s.stillPresent ∧
      t.fab.departed = (if s.rootGone s.stillPresent then s.root :: s.fab.departed else s.fab.departed) ∧
      t.fab.routes = ({ s with fab := { s.fab with adverts := s.stillPresent, rootSerial := s.rootNow s.stillPresent } } :
        State).routesNow) ∧
    (s.ctl.mode ≠ .halt → s.fab.nodeId ≠ some f.dest → routable f = true →
      (let k := (s.takeRx f).link l
       let out := (s.takeRx f).link (s.outLink f.dest)
       (frameTypeKnown f.type = false ∨ f.hops = 0 →
         exec (.frameForward l f) s = .next ((s.takeRx f).setLink l { k with dropped := satAdd u32Max k.dropped 1 })) ∧
       (frameTypeKnown f.type = true → f.hops ≠ 0 → s.forwards = false → exec (.frameForward l f) s = .next (s.takeRx f)) ∧
       (frameTypeKnown f.type = true → f.hops ≠ 0 → s.forwards = true →
         (f.vl ≠ 3 → s.routed f.dest = true →
           exec (.frameForward l f) s = .next ((s.takeRx f).setLink (s.outLink f.dest)
             { out with tx := out.tx ++ [{ f with hops := f.hops - 1 }] })) ∧
         (∀ m g, f.vl = 3 → (s.takeRx f).treeHop f = some (m, g) →
           ∃ t, exec (.frameForward l f) s = .next t ∧ t = { s with fab := t.fab } ∧ g = { f with down := g.down } ∧
             (t.link m).tx.getLast? = some g)))) ∧
    (∀ m g, (s.link l).tx.contains f = true → f.vl ≠ 3 → routable f = true → (s.link l).canSend f = false →
      s.treeHop f = some (m, g) → (s.link m).canSend g = true →
      ∃ t, exec (.escapeWait l f) s = .next t ∧ t = { s with fab := t.fab } ∧ g.vl = 3 ∧
        (m ≠ l → (t.link l).tx = (s.link l).tx.erase f) ∧
        (t.link m).tx = (if m = l then (s.link l).tx.erase f else (s.link m).tx) ++ [g])

def Obligations.LinksTrainAndAcceptBlocks : Prop :=
  Claims.LinksTrainComeUpAndGoDown ∧ Claims.LinkBlocksAreAcceptedInOrder

def Obligations.NodesAdvertiseAssignAndForward : Prop :=
  Claims.AdvertsAreKeptByTheirSequence ∧
    Claims.IdentifiersAreAssignedAndReleased ∧
    Claims.FramesAreForwardedByTheRouteTable

/-! ## Requests between nodes -/

/-- The request commands with the frame type each carries; the notices by their kind. -/
def Sys2Proof.Claims.requestCommand (type : Nat) (f : Frame) : Option Instr :=
  match type with
  | 0x10 => some (.rdReq f)
  | 0x12 => some (.wrReq f)
  | 0x14 => some (.piece f)
  | 0x16 => some (.seal f)
  | 0x18 => (match f.word % 256 with
    | 1 => some (.noticeRelease f)
    | 2 => some (.noticeDiscard f)
    | 3 => some (.noticeRoom f)
    | _ => none)
  | 0x1A => some (.ruleMark f)
  | _ => none

/-- A request that reaches this node: CONFIG and SURVEY answer RESULT 3, RECOVER holds it, once, with the link it came in on, HALT and a
frame for another node leave it alone (R324). -/
def Sys2Proof.Claims.RequestsFollowTheNodesMode : Prop :=
  ∀ (type : Nat) (f : Frame) (i : Instr) (s : State), Claims.requestCommand type f = some i → f.type = type →
    (s.fab.nodeId = some f.dest →
      (s.ctl.mode = .config ∨ s.ctl.mode = .survey → exec i s = .next ((s.takeRx f).answer f 3)) ∧
      (s.ctl.mode = .recover → ∃ t, exec i s = .next t ∧ t = { s with fab := t.fab } ∧
        t.fab.held = if s.fab.held.any fun e => e.2 = f then s.fab.held else s.fab.held ++ [(s.rxLink f, f)])) ∧
    (s.fab.nodeId ≠ some f.dest ∨ s.ctl.mode = .halt → exec i s = .next s)

/-- A frame of a type for this node, in a mode that serves requests (R324). -/
def Sys2Proof.Claims.served (s : State) (f : Frame) (type : Nat) : Prop :=
  f.type = type ∧ s.fab.nodeId = some f.dest ∧ (s.ctl.mode = .flow ∨ s.ctl.mode = .keep ∨ s.ctl.mode = .twin ∨ s.ctl.mode = .drain)

/-- RD_REQ and WR_REQ: outside INBOUND_SET's windows they are answered 2, with a byte outside every range 1, a write of no bytes 0 (and a
read of none is dropped, assumption log 25); any other is served, and within one beat of a memory port it becomes an access of the link
that it came in on at the port of its address, under the frame's class (R236, R305, R324, R325). -/
def Sys2Proof.Claims.ReadsAndWritesOfOtherNodesAreServed : Prop :=
  ∀ (f : Frame) (p n : Nat) (s : State), f.word < 2 ^ 51 →
    (Claims.served s f 0x10 → fieldAt f.payload 0 2 % 8192 = n →
      (n = 0 → exec (.rdReq f) s = .next (s.takeRx f)) ∧
      (n ≠ 0 → s.inboundOk rightRead f.word n = false → exec (.rdReq f) s = .next ((s.takeRx f).answer f 2)) ∧
      (n ≠ 0 → s.inboundOk rightRead f.word n = true → s.someNowhere false f.word n = true →
        exec (.rdReq f) s = .next ((s.takeRx f).answer f 1)) ∧
      (n ≠ 0 → s.inboundOk rightRead f.word n = true → s.someNowhere false f.word n = false →
        ∃ t, exec (.rdReq f) s = .next t ∧ t.mem = s.mem ∧ t.fab.serving = s.fab.serving ++ [f] ∧
          (s.portOf f.word = some p → f.word % 128 + n ≤ 128 →
            ((t.port p).rd.queue.getLast?.map fun r => (r.owner, r.requester, r.cls, r.beats.map fun b => (b.addr, b.len))) =
              some (.inboundRead f.src f.tag, linkReq (s.rxLink f), f.cls, [(f.word / 128 * 128, n)])))) ∧
    (Claims.served s f 0x12 →
      (let runs := writeRuns f
       let allowed := runs.all fun e => s.inboundOk rightWrite e.1 e.2.length
       let nowhere := runs.any fun e => s.someNowhere true e.1 e.2.length
       (allowed = false → exec (.wrReq f) s = .next ((s.takeRx f).answer f 2)) ∧
       (allowed = true → nowhere = true → exec (.wrReq f) s = .next ((s.takeRx f).answer f 1)) ∧
       (runs = [] → exec (.wrReq f) s = .next ((s.takeRx f).answer f 0)) ∧
       (allowed = true → nowhere = false → runs ≠ [] →
         ∃ t, exec (.wrReq f) s = .next t ∧ t.mem = s.mem ∧ t.fab.serving = s.fab.serving ++ [f] ∧
           (f.masked = false → s.portOf f.word = some p → s.stashTakes f.word = none → f.word % 128 + f.payload.length ≤ 128 →
             ((t.port p).wr.queue.getLast?.map fun r => (r.owner, r.requester, r.cls, r.beats.map (·.data))) =
               some (.inboundWrite f.src f.tag, linkReq (s.rxLink f), f.cls, [placed f.word f.payload])))))

/-- PIECE and SEAL wait at POOL's input; NOTICE_RELEASE frees the marks of its item, NOTICE_DISCARD discards the open unit of its
identity, unless it has sealed or its seal is under way, NOTICE_ROOM lets what was refused at the sender's galley be issued again, and each is answered
0; RULE_MARK is answered once every op that had issued an access is acknowledged, and stands until then (R112, R329, R330, R331). POOL goes
on from u. -/
def Sys2Proof.Claims.PoolAndRuleFramesAreServed : Prop :=
  ∀ (f : Frame) (s : State),
    (let x := s.takeRx f
     (Claims.served s f 0x14 →
       exec (.piece f) s = .next { x with pool := { x.pool with pieces := x.pool.pieces ++ [pieceOf f] } }) ∧
     (Claims.served s f 0x16 →
       exec (.seal f) s = .next { x with pool := { x.pool with seals := x.pool.seals ++ [pieceOf f] } }) ∧
     (Claims.served s f 0x18 → f.word % 256 = 1 →
       ∃ u : State, exec (.noticeRelease f) s = .next (u.poolRun.answer f 0) ∧ u.mem = s.mem ∧ ∀ m, m ∈ u.pool.marks ↔
         (m ∈ s.pool.marks ∧ ¬ (m.same (pieceOf f) = true ∧ m.seq = (pieceOf f).seq))) ∧
     (Claims.served s f 0x18 → f.word % 256 = 2 → (∃ a, s.pieceAct (pieceOf f) = .drop a) →
       exec (.noticeDiscard f) s = .next (x.poolRun.answer f 0)) ∧
     (Claims.served s f 0x18 → f.word % 256 = 2 → (∀ a, s.pieceAct (pieceOf f) ≠ .drop a) →
       (∀ u ∈ (s.galley (pieceOf f).galley).units, u.is (pieceOf f) = true → (s.galley (pieceOf f).galley).isSealing u = false) →
       ∃ u : State, exec (.noticeDiscard f) s = .next (u.poolRun.answer f 0) ∧ u.mem = s.mem ∧
         (∀ v, v ∈ (u.galley (pieceOf f).galley).units ↔
           (v ∈ (s.galley (pieceOf f).galley).units ∧ v.is (pieceOf f) = false)) ∧
         (u.pool.markOf (pieceOf f)).map (·.state) = some .aborted) ∧
     (Claims.served s f 0x18 → f.word % 256 = 3 →
       ∃ u : State, exec (.noticeRoom f) s = .next (u.answer f 0) ∧ u.mem = s.mem ∧ u.galley = s.galley ∧
         ((∀ e ∈ s.ctxs, s.run e.1 = none) → u = x)) ∧
     (Claims.served s f 0x1A → (s.fab.markers.any fun m => decide (m.1 = f.src) && decide (m.2.1 = f.tag)) = false →
       (((x.earlierOps fun _ => true).all fun e => !x.opUnacked e) = true → exec (.ruleMark f) s = .next (x.answer f 0)) ∧
       (((x.earlierOps fun _ => true).all fun e => !x.opUnacked e) = false →
         exec (.ruleMark f) s = .next
           { x with fab := { x.fab with markers := x.fab.markers ++ [(f.src, f.tag, x.earlierOps fun _ => true)] } })))

/-- An answer frame of a type for this node, and the request it answers. -/
def Sys2Proof.Claims.answersOne (s : State) (f : Frame) (type : Nat) (r : Remote) : Prop :=
  f.type = type ∧ s.fab.nodeId = some f.dest ∧ s.ctl.mode ≠ .halt ∧ s.asked f = some r

/-- The answers: read data fills the op's stream, and ends its request once it is whole; RESULT 0 ends a write, a notice, a piece, a
seal and a marker, with what each releases; one that answers no request is dropped (R305, R306, R326). -/
def Sys2Proof.Claims.AnswersEndTheirRequests : Prop :=
  ∀ (f : Frame) (r : Remote) (s : State) (c n g d : Nat) (q : OpRun), c < 262144 →
    (let gone : List Remote := s.fab.remotes.filter (· ≠ r)
     (Claims.answersOne s f 0x11 r → r.owner = .opRead c n g → s.run c = some q → q.serial = n → f.word = r.frame.word →
       ∃ t, exec (.rdData f) s = .next t ∧ t.mem = s.mem ∧
         (r.len ≤ r.got + f.payload.length → r.got = 0 → t.fab.remotes = gone) ∧
         (r.got + f.payload.length < r.len →
           t.fab.remotes = s.fab.remotes.map fun x => if x = r then { x with got := r.got + f.payload.length } else x) ∧
         ∀ i, i < r.len → i < f.payload.length →
           ∃ q', t.run c = some q' ∧ (bufKey r.side (q.keptAt g r.side r.offset + i), f.payload.getD i 0) ∈ q'.buf) ∧
     (Claims.answersOne s f 0x13 r → r.owner = .opWrite c n g → f.word % 256 = 0 →
       ∃ t, exec (.wrResp f) s = .next t ∧ t = { s with fab := t.fab } ∧ t.fab.remotes = gone) ∧
     (Claims.answersOne s f 0x19 r → r.owner = .notice c → f.word % 256 = 0 →
       ∃ t, exec (.noticeAns f) s = .next t ∧ t = { s with fab := t.fab } ∧ t.fab.remotes = gone) ∧
     (Claims.answersOne s f 0x15 r → r.owner = .piece c n g d → f.word % 256 = 0 → s.run c = some q → q.serial = n →
       (∀ p ∈ s.pool.pieces, ¬ (p.remote = none ∧ p.stream.ctx = c ∧ p.serial = n ∧ p.seg = g)) →
       (∀ e, Owner.piece c n g e ∉ (s.dropRemote r).owners) →
       ∃ t, exec (.pieceAns f) s = .next t ∧ t.mem = s.mem ∧ t.fab.remotes = gone ∧
         (t.run c).map (fun y => y.segs.map fun z => (z.lo, z.state, z.delivered)) = some (q.segs.map fun x =>
           if x.lo = g then (x.lo, if x.refusals.isEmpty then .complete else .refused,
             if x.refusals.contains d || x.delivered.contains d then x.delivered else x.delivered ++ [d])
           else (x.lo, x.state, x.delivered))) ∧
     (Claims.answersOne s f 0x17 r → r.owner = .seal c n d → f.word % 256 = 0 → s.run c = some q → q.serial = n →
       ∃ t, exec (.sealAns f) s = .next t ∧ t.mem = s.mem ∧ r ∉ t.fab.remotes ∧
         (t.run c).map (·.seals) = some (q.seals.filter (· ≠ d))) ∧
     (Claims.answersOne s f 0x1B r → r.owner = .ruleMark c d → f.word % 256 = 0 →
       ∃ t, exec (.ruleAns f) s = .next t ∧ t.mem = s.mem ∧ t.fab.remotes = gone ∧
         t.sched.rules = s.sched.rules.map fun x => if x.ctx = c then { x with nodes := x.nodes.filter (· ≠ d) } else x) ∧
     (∀ type i, (type, i) ∈ [(0x11, Instr.rdData f), (0x13, .wrResp f), (0x15, .pieceAns f), (0x17, .sealAns f), (0x19, .noticeAns f),
         (0x1B, .ruleAns f)] → f.type = type → s.fab.nodeId = some f.dest → s.ctl.mode ≠ .halt → s.asked f = none →
       exec i s = .next (s.takeRx f)))

/-- A request that fails: an error RESULT or REMOTE_TIMEOUT sends it again under a new tag with one attempt more while retries are left
(the bytes before a failed read's are written meanwhile, R259), and otherwise its op faults with BUS_FAULT, cause 3 for the timeout, and its attempts; BUSY takes its frame and no more; BUSY_SEND
answers a request whose service waits; ROUTE_WAIT ends a wait for a node that cannot be reached with NODE_UNREACHABLE (R256, R267, R306,
R326, R327). -/
def Sys2Proof.Claims.RemoteRequestsAreRetriedAndFail : Prop :=
  ∀ (f : Frame) (r : Remote) (s : State) (c n g tag newTag off : Nat) (q : OpRun), c < 262144 →
    (let again (t : State) : Prop := ∃ x : Remote, x.owner = r.owner ∧ x.attempts = r.attempts + 1 ∧ x.got = 0 ∧
       x.frame = { r.frame with tag := x.tag } ∧ t.fab.remotes = s.fab.remotes.map fun y => if y = r then x else y
     (Claims.answersOne s f 0x13 r → r.owner = .opWrite c n g → f.word % 256 ≠ 0 →
       (s.obj 0x4010 0 = 0 ∨ r.attempts ≤ s.obj 0x4010 0) → s.readsStopped r.owner = false →
       ∃ t, exec (.wrResp f) s = .next t ∧ t = { s with fab := t.fab } ∧ again t) ∧
     (s.obj 0x6040 0 ≠ 0 → (s.fab.remotes.find? fun x => x.tag = tag && !x.busErr) = some r → s.readsStopped r.owner = false →
       ((s.obj 0x4010 0 = 0 ∨ r.attempts ≤ s.obj 0x4010 0) →
         ((∀ c n g, r.owner ≠ .opRead c n g) →
           ∃ t, exec (.remoteTimeout tag newTag) s = .next t ∧ t = { s with fab := t.fab } ∧ again t) ∧
         (r.owner = .opRead c n g → ∃ t, exec (.remoteTimeout tag newTag) s = .next t ∧ t.mem = s.mem ∧ r ∉ t.fab.remotes ∧
           ∃ x ∈ t.fab.remotes, x.owner = r.owner ∧ x.attempts = r.attempts + 1 ∧ x.got = 0 ∧
             x.frame = { r.frame with tag := x.tag })) ∧
       (s.obj 0x4010 0 ≠ 0 → s.obj 0x4010 0 < r.attempts → r.owner = .opRead c n g → s.run c = some q → q.serial = n →
         ∃ t, exec (.remoteTimeout tag newTag) s = .next t ∧ t.mem = s.mem ∧ t.fab.remotes = s.fab.remotes.filter (· ≠ r) ∧
           (t.ctx c).halting = true ∧
           (t.ctx c).faults = (s.ctx c).faults ++ [{ offset := r.offset, status := .busFault, detail := r.first, cause := 3, port := 255,
                                                     attempts := r.attempts, address := r.first }])) ∧
     (s.obj 0x6040 0 = 0 → exec (.remoteTimeout tag newTag) s = .next s) ∧
     (s.arrives f 0x20 = true → exec (.busy f) s = .next (s.takeRx f)) ∧
     (s.obj 0x6040 0 ≠ 0 → (s.serviceWaits f.src tag = true →
         exec (.busySend f.src tag) s = .next (s.sendFrame { type := 0x20, vl := 2, dest := f.src, tag := tag })) ∧
       (s.serviceWaits f.src tag = false → exec (.busySend f.src tag) s = .next s)) ∧
     (s.obj 0x6041 0 ≠ 0 → s.unrouted c = [] → (s.ctx c).waitOn = some (.route n off) →
       (s.reachable n = true → exec (.routeWait c) s = .next (s.unstall c)) ∧
       (s.reachable n = false → ∃ t, exec (.routeWait c) s = .next t ∧ t = { s with ctxs := t.ctxs } ∧
         (t.ctx c).waitOn = none ∧ (t.ctx c).halting = true ∧
         (t.ctx c).faults = (s.ctx c).faults ++ [{ offset := off, status := .nodeUnreachable, detail := n }])) ∧
     (s.obj 0x6041 0 = 0 → exec (.routeWait c) s = .next s))

def Obligations.RequestsOfOtherNodesAreServed : Prop :=
  Claims.RequestsFollowTheNodesMode ∧ Claims.ReadsAndWritesOfOtherNodesAreServed ∧ Claims.PoolAndRuleFramesAreServed
def Obligations.OwnRequestsEndAreRetriedOrFail : Prop :=
  Claims.AnswersEndTheirRequests ∧ Claims.RemoteRequestsAreRetriedAndFail

/-! ## The islands -/

/-- isl_RST_N: an island that may be reset alone goes into reset, and leaves it with its clock present, its rail good (isl_PWROK, w) and
nothing that holds it; of a central island the reset, or a fault, in a traffic mode resets the device (R349, R351, R352); a fault is kept in FAULT, a
mover is retired by it (R453). -/
def Sys2Proof.Claims.IslandsAreResetAndReleased : Prop :=
  ∀ (i : Nat) (s : State), i ≠ 0 → i < 47 →
    (isCentral i = false → ∃ t, exec (.islandResetAssert i) s = .next t ∧ (t.island i).rstLow = true ∧
      (t.island i).inReset = true ∧ t.straps = s.straps) ∧
    (isCentral i = true → s.ctl.mode.traffic = true →
      (∃ t, exec (.islandResetAssert i) s = .next t ∧ t.mem = s.mem ∧ t.ctxs = [] ∧ t.straps = s.straps ∧
        (t.island i).inReset = true) ∧
      (∃ t, exec (.islandFault i) s = .next t ∧ t.mem = s.mem ∧ t.ctxs = [] ∧ (t.island i).inReset = true)) ∧
    ((s.island i).inReset = true → (s.island i).pdreq = false → (s.island i).heldOut = false →
      ((s.island i).clockPresent = true → ∃ t, exec (.islandResetRelease ⟨i, true⟩) s = .next t ∧ t.mem = s.mem ∧
        (t.island i).inReset = false ∧ (t.island i).rstLow = false ∧ (t.island i).gated = false ∧ (t.island i).pdack = false) ∧
      (∀ w, (s.island i).clockPresent = false ∨ w = false → ∃ t, exec (.islandResetRelease ⟨i, w⟩) s = .next t ∧ t.mem = s.mem ∧
        (t.island i).inReset = true ∧ (t.island i).rstLow = false ∧ (t.island i).pwrok = w)) ∧
    (isCentral i = false → ∃ t, exec (.islandFault i) s = .next t ∧ (t.island i).fault = true ∧
      (t.island i).faults = satAdd u16Max (s.island i).faults 1 ∧
      (if i < 15 then (t.island i).retired = true else (t.island i).inReset = true)) ∧
    exec (.islandResetAssert 0) s = .next s

/-- An island's clock: lost, CLOCK_PRESENT falls and CLOCK_LOST is raised unless the island is gated, in reset or on HOLD, and what stands
at a memory port that is not on HOLD hangs; back, it reads present, and POOL and JRN go on with what waited (R337, R338, R347, R358; what of a unit stands still is the model's
reading, assumption log 93). -/
def Sys2Proof.Claims.ClocksAreSeenToStopAndReturn : Prop :=
  ∀ (i : Nat) (s : State), i ≠ 0 → i < 47 →
    ((s.island i).clockPresent = true → ∃ t, exec (.clockLost i) s = .next t ∧ t.mem = s.mem ∧
      t.island i = { s.island i with clockPresent := false, clockPaused := s.onHold i } ∧
      Tab.get zeroTab t.ctl.eventCount 15 = (if (s.island i).gated = false ∧ (s.island i).inReset = false ∧ s.onHold i = false then
        satAdd u32Max (Tab.get zeroTab s.ctl.eventCount 15) 1 else Tab.get zeroTab s.ctl.eventCount 15) ∧
      ∀ p, p < 8 → i = portIsland p → s.onHold i = false → ∀ r ∈ (t.port p).rd.queue ++ (t.port p).wr.queue, r.hung = true) ∧
    (∃ t, exec (.clockReturn i) s = .next t ∧ t.mem = s.mem ∧
      t.island i = { s.island i with clockPresent := true, clockPaused := false }) ∧
    ((s.island i).clockPresent = false → (s.island i).inReset = false → (s.island i).gated = false →
      (let u := s.setIsland i { s.island i with clockPresent := true, clockPaused := false }
       (i = poolIsland → exec (.clockReturn i) s = .next u.poolRun) ∧ (i = jrnIsland → exec (.clockReturn i) s = .next u.upkeepNext)))

/-- PDREQ is kept; PDACK comes once the island is idle, never for a central one, with GATED, and the island's outputs read 0; after it
the fall of PDREQ puts the island into reset, before it the island goes on (R353, R364, R410). -/
def Sys2Proof.Claims.PowerDownIsAHandshake : Prop :=
  ∀ (i : Nat) (s : State), i ≠ 0 → i < 47 →
    (∃ t, exec (.powerDownRequest i) s = .next t ∧ t.mem = s.mem ∧ (t.island i).pdreq = true ∧
      (t.island i).gated = (s.island i).gated) ∧
    ((s.island i).pdreq = true → (s.island i).pdack = false →
      (isCentral i = false → s.powerIdle i = true →
        ∃ t, exec (.powerDownAck i) s = .next t ∧ t.mem = s.mem ∧ t.ctxs = s.ctxs ∧
          t.island i = { s.island i with pdack := true, gated := true } ∧
          (∀ p, p < 8 → i = portIsland p → (t.port p).qack = false) ∧
          (∀ l, l < 16 → i = linkIsland l → (t.link l).txBlock = []) ∧
          (∀ n, n < 4 → i = stashIsland n → (t.stashPort n).wake = false)) ∧
      (isCentral i = true ∨ s.powerIdle i = false → exec (.powerDownAck i) s = .next s)) ∧
    ((s.island i).pdreq = true →
      ∀ w, ∃ t, exec (.powerDownRelease ⟨i, w⟩) s = .next t ∧ (t.island i).pdreq = false ∧ (t.island i).pwrok = w ∧
        (t.island i).inReset = ((s.island i).pdack || (s.island i).inReset))

/-- EVENT_ROUND moves the events of a source to their wire, as many as the wire has room for, the posts that the source held back follow
into its count as far as it reaches, and a unit that waited goes on from u; EVT_PULSE signals one (R345, R346, R433). -/
def Sys2Proof.Claims.EventsReachTheirWires : Prop :=
  ∀ (source wire : Nat) (s : State), wire < 16 →
    (let have' := Tab.get zeroTab s.ctl.evtPending wire
     let n := min (s.postsOf source wire) (65535 - have')
     let owed := Tab.get zeroTab s.ctl.owed (postKey source wire)
     let m := min owed (32767 - (s.postsOf source wire - n))
     ∃ u : State, exec (.eventRound source wire) s = .next (if m = 0 then u else u.unitGoes source) ∧ u = { s with ctl := u.ctl } ∧
       u.postsOf source wire = s.postsOf source wire - n + m ∧ Tab.get zeroTab u.ctl.owed (postKey source wire) = owed - m ∧
       Tab.get zeroTab u.ctl.evtPending wire = have' + n ∧ u.ctl.mode = s.ctl.mode ∧
       (∀ v, v ≠ wire → Tab.get zeroTab u.ctl.evtPending v = Tab.get zeroTab s.ctl.evtPending v)) ∧
    (Tab.get zeroTab s.ctl.evtPending wire ≠ 0 →
      ∃ t, exec (.evtPulse wire) s = .next t ∧ t = { s with ctl := t.ctl } ∧
        Tab.get zeroTab t.ctl.evtPending wire = Tab.get zeroTab s.ctl.evtPending wire - 1 ∧
        Tab.get zeroTab t.ctl.evtPulses wire = Tab.get zeroTab s.ctl.evtPulses wire + 1 ∧ t.ctl.posts = s.ctl.posts) ∧
    (Tab.get zeroTab s.ctl.evtPending wire = 0 → exec (.evtPulse wire) s = .next s)

/-- The stash ports: the lead of a raised wake line passes, an idle line falls, the cluster takes the tile at the front, and its bytes
and no others land, after which, with the last access of its owner, that owner has its answer; a refused tile, and every later one of its
burst, falls back to its home address after the hold limit, under a lane that takes work; a command that finds no wake line, no tile or no
limit to act on changes nothing (R240, R363 to R366, R427). That a held tile keeps the line up, and which lane takes the burst over where
its own takes no work, are the model's choices (assumption log 83). -/
def Sys2Proof.Claims.TilesAreTakenRefusedOrFallBack : Prop :=
  ∀ (n : Nat) (s : State) (x : PortReq),
    ((s.stashPort n).wake = true →
      exec (.wakeLead n) s = .next (s.setStash n { s.stashPort n with leadPassed := true })) ∧
    ((s.stashPort n).wake = false → exec (.wakeLead n) s = .next s ∧ exec (.wakeIdle n) s = .next s) ∧
    ((s.stashPort n).wake = true → (s.stashPort n).tiles = [] → s.obj 0x3303 (n + 1) ≠ 0 →
      exec (.wakeIdle n) s = .next (s.setStash n { s.stashPort n with wake := false, leadPassed := false })) ∧
    ((s.stashPort n).tiles ≠ [] → exec (.wakeIdle n) s = .next s) ∧
    ((s.stashPort n).offers = some x →
      (∃ u : State, u = { s with mem := u.mem, stash := u.stash } ∧ u.mem = (s.land (x.beats.flatMap (·.data))).mem ∧
        (u.stashPort n).tiles = (s.stashPort n).tiles.drop 1 ∧ (u.stashPort n).refused = false ∧
        (∀ k, (∀ b ∈ x.beats, ∀ e ∈ b.data, e.1 ≠ k) → u.byteAt k = s.byteAt k) ∧
        ((u.accessFor fun o => o = x.owner) = true → exec (.stashTileTaken n) s = .next u) ∧
        (∀ p, (u.accessFor fun o => o = x.owner) = false → (x.beats.head?.bind fun b => s.portOf b.addr) = some p →
          exec (.stashTileTaken n) s = .next (u.writeAnswered p x.block x.owner))) ∧
      exec (.stashTileRefused n) s = .next (s.setStash n { s.stashPort n with refused := true })) ∧
    ((s.stashPort n).offers = none → exec (.stashTileTaken n) s = .next s ∧ exec (.stashTileRefused n) s = .next s) ∧
    (∀ l lane, (s.stashPort n).refused = true → s.obj 0x3302 (n + 1) ≠ 0 → (s.stashPort n).tiles = x :: l → s.tileLane = some lane →
      ∃ t, exec (.stashFallback n) s = .next t ∧ t = { s with ports := t.ports, stash := t.stash } ∧
        (t.stashPort n).tiles = l.filter (fun y => y.owner ≠ x.owner) ∧ (t.stashPort n).refused = false ∧
        (t.stashPort n).fallbacks = satAdd u32Max (s.stashPort n).fallbacks 1 ∧
        ∀ b ∈ x.beats, ∀ e ∈ b.data, ∀ p, s.portOf (beatOf e.1) = some p →
          ∃ r ∈ (t.port p).wr.queue, r.owner = x.owner ∧ r.requester = lane ∧ ∃ d ∈ r.beats, e ∈ d.data) ∧
    ((s.stashPort n).refused = false ∨ s.obj 0x3302 (n + 1) = 0 ∨ s.tileLane = none → exec (.stashFallback n) s = .next s)

/-- TEST_WRAP_REQUEST of an island in service is refused in its TEST_STATUS, and any other leaves it; TEST_ACCESS_RESET resets the test
access alone; SCRUB counts a corrected word, and an uncorrectable one resets the device with its address kept (R434, R435,
R463). -/
def Sys2Proof.Claims.TestAccessAndScrubber : Prop :=
  ∀ (i offset : Nat) (s : State), i < 47 →
    (s.mayWrap i = true → exec (.testWrapRequest i) s = .next { s with tapReset := false }) ∧
    (s.mayWrap i = false →
      exec (.testWrapRequest i) s = .next (({ s with tapReset := false } : State).setIsland i { s.island i with testStatus := 4 })) ∧
    exec .testAccessReset s = .next { s with tapReset := true } ∧
    exec (.scrub offset true) s = .next { s with scrub := { s.scrub with corrected := satAdd u32Max s.scrub.corrected 1 } } ∧
    ∃ t, exec (.scrub offset false) s = .next t ∧ t.mem = s.mem ∧ t.ctxs = [] ∧
      t.scrub.uncorrected = satAdd u16Max s.scrub.uncorrected 1 ∧ t.scrub.address = offset % 2 ^ 25 / 8 * 8

def Obligations.IslandsResetsClocksAndPower : Prop :=
  Claims.IslandsAreResetAndReleased ∧ Claims.ClocksAreSeenToStopAndReturn ∧ Claims.PowerDownIsAHandshake
def Obligations.EventsTilesTestsAndScrubber : Prop :=
  Claims.EventsReachTheirWires ∧ Claims.TilesAreTakenRefusedOrFallBack ∧ Claims.TestAccessAndScrubber

/-! ## What the commands leave alone -/

/-- s with the parts at which ops work taken from t: the contexts, SCHED, the ports of memory and of the stash, POOL and the fabric, with the
count of free values. -/
def Sys2Proof.Claims.working (s t : State) : State :=
  { s with free := t.free, ctxs := t.ctxs, sched := t.sched, ports := t.ports, pool := t.pool, fab := t.fab, stash := t.stash }

/-- Every one of these commands completes, in every state. A command of a context's channel leaves every other context as it was, but a
POP, behind which POOL goes on for all of them; the windows, the dictionary, the twin, the islands and all of memory stand in every case, and
each changes only the parts of the machine that its rules name. -/
def Obligations.ChannelCommandsLeaveTheRest : Prop :=
  ∀ (c : Nat) (s : State),
    (let others (t : State) : Prop := ∀ d, d ≠ c → t.ctx d = s.ctx d
     let each (l : List Instr) (frame : State → Prop) : Prop := ∀ i ∈ l, ∃ t, exec i s = .next t ∧ frame t
     each [.nop c, .loop c, .endloop c, .link c, .endOp c, .waitTimeout c, .popTimeout c, .poolWaitExpiry c, .signalCounterAdd c] (fun t =>
       t = { s with ctxs := t.ctxs, free := t.free } ∧ others t) ∧
     each [.move c, .fill c, .proof c, .sift c, .decode c, .part c, .tally c, .gather c, .scatter c, .push c, .signalStatusWord c,
           .pauseComplete c] (fun t =>
       t = Claims.working s t ∧ others t) ∧
     each [.wait c, .ruleStream c, .ruleGroup c, .ruleDevice c, .ruleFabric c] (fun t =>
       t = { s with free := t.free, ctxs := t.ctxs, sched := t.sched, ports := t.ports, fab := t.fab } ∧ others t) ∧
     each [.signalEvent c] (fun t => t = { s with free := t.free, ctl := t.ctl, ctxs := t.ctxs } ∧ others t) ∧
     each [.opComplete c, .itemAccepted c, .acceptWordRetry c] (fun t =>
       t = { s with ctl := t.ctl, ctxs := t.ctxs, sched := t.sched, ports := t.ports, stash := t.stash } ∧ others t) ∧
     each [.haltComplete c, .itemEnd c, .abortComplete c, .counterUpdate c, .formeHeaderFetched c] (fun t =>
       t = { Claims.working s t with ctl := t.ctl, jrn := t.jrn } ∧ others t) ∧
     each [.popReturn c, .popWait c] (fun t => t = { Claims.working s t with ctl := t.ctl }))

/-- Every one of these commands completes, in every state. The sidebands, the rounds and the domain signals of a port change that port
and, where channels stall at it or go on, those; an access's answer changes neither the windows nor the dictionary, and memory only where a
write lands; a stash port's commands change that port, and its tile's bytes and what the tile's answer lets go on. -/
def Obligations.PortCommandsLeaveTheRest : Prop :=
  ∀ (p cycle tag : Nat) (w err applied : Bool) (tags : List Nat) (s : State),
    (let otherPorts (t : State) : Prop := ∀ q, q ≠ p → t.port q = s.port q
     let each (l : List Instr) (frame : State → Prop) : Prop := ∀ i ∈ l, ∃ t, exec i s = .next t ∧ frame t
     each [.throttleAssert p, .throttleDeassert p, .domainDown p, .quotaWindowStart p, .preemptionRound p w cycle tags] (fun t =>
       t = { s with ports := t.ports } ∧ otherPorts t) ∧
     each [.memHoldAssert p, .memHoldRelease p] (fun t => t = { s with ports := t.ports, islands := t.islands } ∧ otherPorts t ∧
       ∀ k, k ≠ portIsland p → t.island k = s.island k) ∧
     each [.memHoldLong p] (fun t => t = { s with ctl := t.ctl, ports := t.ports } ∧ otherPorts t) ∧
     each [.arbitrationRound p w cycle tags, .domainDownRequest p] (fun t =>
       t = { s with ctxs := t.ctxs, sched := t.sched, ports := t.ports } ∧ otherPorts t) ∧
     each [.domainReturn p] (fun t =>
       t = { s with ctl := t.ctl, ctxs := t.ctxs, sched := t.sched, ports := t.ports, stash := t.stash }) ∧
     each [.domainLimit p] (fun t => t = { Claims.working s t with ctl := t.ctl, jrn := t.jrn }) ∧
     each [.readDataReturn p tag err] (fun t =>
       t = { Claims.working s t with ctl := t.ctl, jrn := t.jrn, islands := t.islands }) ∧
     each [.writeResponse p tag err applied, .accessTimeout p w tag applied] (fun t =>
       t = { Claims.working s t with mem := t.mem, ctl := t.ctl, jrn := t.jrn, twin := t.twin, islands := t.islands }) ∧
     each [.wakeLead p, .wakeIdle p, .stashTileRefused p] (fun t => t = { s with stash := t.stash }) ∧
     each [.stashTileTaken p] (fun t =>
       t = { Claims.working s t with mem := t.mem, ctl := t.ctl, jrn := t.jrn, twin := t.twin }) ∧
     each [.stashFallback p] (fun t => t = { s with ports := t.ports, stash := t.stash }))

/-- Every one of these commands completes, in every state. The commands of links and nodes change the fabric alone, an advert with it CTL's counts of events, the loss of a link's lock the link's
island and what it serves at the ports; a new identifier and new routes let what waited for them go on. Requests of other nodes, and the
answers to this node's own, leave memory, the windows, the dictionary and the islands. -/
def Obligations.LinkAndFabricCommandsLeaveTheRest : Prop :=
  ∀ (l a b d : Nat) (x : List Byte) (f : Frame) (e : Beacon) (v : Advert) (s : State),
    (let each (l : List Instr) (frame : State → Prop) : Prop := ∀ i ∈ l, ∃ t, exec i s = .next t ∧ frame t
     each [.linkLock l, .linkBlock l x, .harebellSend l, .beaconTimeout l, .advertSend, .assignRequest l a b, .idHoldExpiry a,
           .frameForward l f, .escapeWait l f, .busy f, .busySend a b] (fun t => t = { s with fab := t.fab }) ∧
     each [.linkLockLoss l] (fun t => t = { s with free := t.free, ports := t.ports, fab := t.fab, islands := t.islands } ∧
       ∀ k, k ≠ linkIsland l → t.island k = s.island k) ∧
     each [.advert l v] (fun t => t = { s with fab := t.fab, ctl := t.ctl }) ∧
     each [.harebell l e, .assignAnswer l a b d, .assignRetry, .routeRecompute] (fun t =>
       t = { Claims.working s t with ctl := t.ctl, twin := t.twin }) ∧
     each [.rdReq f, .wrReq f, .piece f, .seal f, .noticeRelease f, .noticeDiscard f, .noticeRoom f, .ruleMark f] (fun t =>
       t = { Claims.working s t with ctl := t.ctl }) ∧
     each [.rdData f, .wrResp f, .pieceAns f, .sealAns f, .noticeAns f, .ruleAns f] (fun t =>
       t = { Claims.working s t with ctl := t.ctl, jrn := t.jrn, twin := t.twin }) ∧
     each [.remoteTimeout a b] (fun t => t = { Claims.working s t with ctl := t.ctl }) ∧
     each [.routeWait a] (fun t => t = { s with ctl := t.ctl, free := t.free, ctxs := t.ctxs, sched := t.sched, fab := t.fab }))

/-- Every one of these commands completes, in every state (the clock's loss for every island but CTL). The journal's and the twin's
commands, POOL's and the islands' change no window and no value of the dictionary, and memory in none of
these cases; each leaves the parts of the machine that its rules do not name. -/
def Obligations.JournalPoolAndIslandCommandsLeaveTheRest : Prop :=
  ∀ (a b d : Nat) (o : Bool) (l : List (List Byte)) (s : State),
    (let each (l : List Instr) (frame : State → Prop) : Prop := ∀ i ∈ l, ∃ t, exec i s = .next t ∧ frame t
     each [.journalReclaim] (fun t =>
       t = { s with free := t.free, ctl := t.ctl, ports := t.ports, stash := t.stash, jrn := t.jrn, fab := t.fab }) ∧
     each [.journalWriteRetry] (fun t => t = { s with ports := t.ports, jrn := t.jrn }) ∧
     each [.reexecutionScan] (fun t => t = { s with
       free := t.free, ctl := t.ctl, ctxs := t.ctxs, ports := t.ports, stash := t.stash, jrn := t.jrn, twin := t.twin, fab := t.fab }) ∧
     each [.twinReady a o o b] (fun t => t = { s with twin := t.twin }) ∧
     each [.twinHello a b d d, .twinAckTimeout] (fun t => t = { s with twin := t.twin, fab := t.fab }) ∧
     each [.twinShip a b d o l] (fun t => t = { s with ports := t.ports, stash := t.stash, twin := t.twin }) ∧
     each [.twinLossLimit] (fun t => t = { s with ctl := t.ctl, twin := t.twin }) ∧
     each [.poolPiece a, .poolSeal a, .galleyRebuild a, .room a] (fun t => t = { Claims.working s t with ctl := t.ctl }) ∧
     each [.eventRound a b] (fun t => t = { Claims.working s t with ctl := t.ctl, jrn := t.jrn }) ∧
     each [.evtPulse a] (fun t => t = { s with ctl := t.ctl }) ∧
     each [.testEnd a o, .testWrapRequest a, .testAccessReset] (fun t => t = { s with islands := t.islands, tapReset := t.tapReset }) ∧
     (a ≠ 0 → each [.clockLost a] (fun t =>
       t = { s with ctl := t.ctl, ctxs := t.ctxs, sched := t.sched, ports := t.ports, islands := t.islands })) ∧
     each [.clockReturn a] (fun t => t = { Claims.working s t with ctl := t.ctl, jrn := t.jrn, islands := t.islands }) ∧
     each [.islandResetRelease ⟨a, o⟩] (fun t => t = { s with
       ctl := t.ctl, ctxs := t.ctxs, sched := t.sched, ports := t.ports, stash := t.stash, fab := t.fab, islands := t.islands }) ∧
     each [.powerDownRequest a] (fun t => t = { s with ctxs := t.ctxs, sched := t.sched, fab := t.fab, islands := t.islands }) ∧
     each [.powerDownAck a] (fun t => t = { s with
       free := t.free, sched := t.sched, ports := t.ports, stash := t.stash, fab := t.fab, islands := t.islands }) ∧
     each [.powerDownRelease ⟨a, o⟩] (fun t => t = { Claims.working s t with ctl := t.ctl, jrn := t.jrn, islands := t.islands }) ∧
     each [.doorbellResponseTaken a] (fun t => t = { s with sched := t.sched }) ∧
     each [.contextLoad a b] (fun t =>
       t = { s with ctl := t.ctl, ctxs := t.ctxs, sched := t.sched, ports := t.ports, stash := t.stash }))

/-! ## Rules stated whole -/

/-- R92. The structural rules of loops: an ENDLOOP acts on the nearest open LOOP, of those of the block; a LOOP opens while fewer than three are
open and halts with BAD_OP where three are; an ENDLOOP with none open, and a LINK inside one, halt with BAD_OP. -/
def Obligations.LoopsKeepTheirStructure : Prop :=
  ∀ (c : Nat) (s : State) (it : Item) (b : List Byte), s.front c = some (it, b) →
    (let badOp : State := s.nextFree.fail c { status := .badOp, detail := s.opDetail it }
     (∀ l l', opcodeOf b = 0x11 → it.loops = l ++ [l'] →
       ∃ t, exec (.endloop c) s = .next t ∧ ∃ r, (t.item c).map (·.loops) = some (l ++ r) ∧
         r = if l'.pass + 1 < l'.count then [{ l' with pass := l'.pass + 1 }] else []) ∧
     (opcodeOf b = 0x10 → it.loops.length < 3 → fieldAt b 4 4 ≠ 0 →
       ∃ t, exec (.loop c) s = .next t ∧ (t.item c).map (fun x => x.loops.length) = some (it.loops.length + 1) ∧
         (t.ctx c).halting = (s.ctx c).halting) ∧
     (opcodeOf b = 0x10 → it.loops.length = 3 → exec (.loop c) s = .next badOp) ∧
     (opcodeOf b = 0x11 → it.loops = [] → exec (.endloop c) s = .next badOp) ∧
     (opcodeOf b = 0x15 → it.loops ≠ [] → exec (.link c) s = .next badOp))

/-- R108. A SIGNAL of kind EVENT posts one event for its wire, makes no access to memory and issues no record. -/
def Obligations.EventSignalsPostOnceAndTouchNoMemory : Prop :=
  ∀ (c : Nat) (s : State) (it : Item) (b : List Byte), s.front c = some (it, b) → opcodeOf b = 0x13 → fieldAt b 4 1 = 1 →
    signalOk b = true → s.streamAcked c = true → s.held c = false →
    (s.postFull schedIsland (fieldAt b 0x1A 1) = false →
      ∃ t, exec (.signalEvent c) s = .next t ∧ (t.item c).map (·.opDone) = some true ∧
        t.postsOf schedIsland (fieldAt b 0x1A 1) = s.postsOf schedIsland (fieldAt b 0x1A 1) + 1 ∧
        (∀ w, w < 16 → w ≠ fieldAt b 0x1A 1 → t.postsOf schedIsland w = s.postsOf schedIsland w) ∧
        t.mem = s.mem ∧ t.ports = s.ports ∧ t.fab = s.fab ∧ t.jrn = s.jrn) ∧
    (s.postFull schedIsland (fieldAt b 0x1A 1) = true → exec (.signalEvent c) s = .next s)

/-- R35. The item at the slot whose sequence is at or below the accepted high-water mark is refused: it does not run, no byte of memory is
written, and the only write that is presented, at a memory port or a stash port, is that of the context's acceptance word; the consumer
index passes it. -/
def Obligations.RefusedItemsDoNotRun : Prop :=
  ∀ (c : Nat) (s : State), Claims.headerAt s c →
    (let x := s.ctx c
     let a := slotAddr x.f x.consumer.toNat
     let n := (s.byteAt (a + 1)).toNat
     s.firstDenied x.f.windowSet rightRead x.f.ringBase (x.f.ringSize * x.f.slotSize) = none ∧ (s.byteAt a).toNat = 1 ∧
       0x40 + 0x20 * (if n = 0 then 256 else n) ≤ x.f.slotSize ∧ s.numAt (a + 8) 8 ≤ x.accepted ∧ x.producer = x.consumer + 1) →
    ∃ t, exec (.formeHeaderFetched c) s = .next t ∧ t.mem = s.mem ∧ (t.ctx c).items = [] ∧ (t.ctx c).accepting = [] ∧
      (t.ctx c).accepted = (s.ctx c).accepted ∧ (t.ctx c).consumer = (s.ctx c).consumer + 1 ∧
      t.fab = s.fab ∧ (∀ p r, r ∈ (t.port p).wr.queue → r ∈ (s.port p).wr.queue ∨ r.owner = .acceptWord c) ∧
      ∀ n r, r ∈ (t.stashPort n).tiles → r ∈ (s.stashPort n).tiles ∨ r.owner = .acceptWord c

/-- R254. ABORT of a channel that a header check halted writes nothing, passes the slot, and fetches the next slot where one is
announced. -/
def Obligations.AbortOfAHeaderHaltPassesTheSlot : Prop :=
  ∀ (s : State) (r : Request), s.ctl.mode.traffic = true → Claims.writes s r 0xC001 0 3 → (s.ctx s.selCtx).state = .halted →
    (s.ctx s.selCtx).headerHalt = true → (s.ctx s.selCtx).items = [] → (s.ctx s.selCtx).accepting = [] →
    ∃ t, exec .channelAbort s = .next t ∧ t.mem = s.mem ∧ (∀ p, (t.port p).wr = (s.port p).wr) ∧
      (t.ctx s.selCtx).consumer = (s.ctx s.selCtx).consumer + 1 ∧ (t.ctx s.selCtx).items = [] ∧
      ((s.ctx s.selCtx).producer = (s.ctx s.selCtx).consumer + 1 ∨ (s.ctx s.selCtx).producer = (s.ctx s.selCtx).consumer →
        (t.ctx s.selCtx).headerHalt = false ∧ (t.ctx s.selCtx).state = if (s.ctx s.selCtx).pauseBit then .paused else .idle) ∧
      (let x := s.ctx s.selCtx
       let a := slotAddr x.f (x.consumer + 1).toNat
       let beats := beatsFrom a (min x.f.slotSize (beatOf a + 256 - a))
       x.producer ≠ x.consumer + 1 → x.producer ≠ x.consumer → x.cached = true → x.header = .none → x.exhausted = false → s.ringReadable x.f = true →
         (∀ b ∈ beats, (s.portOf b).isSome) → s.downPort beats = none →
         (t.ctx s.selCtx).header = .asked ∧ ∀ b ∈ beats, ∀ p, s.portOf b = some p →
           ∃ q ∈ (t.port p).rd.queue, q.owner = .header s.selCtx ∧ q.beats.map (·.addr) = [beatOf b])

/-- R378. The COMMIT service answers with the effect of a write of 1 to 2F00h:00, and a COMMIT that names another object is
refused with 1000_0002h. The request at the front has had no effect yet. -/
def Obligations.CommitServiceWritesTheCommitObject : Prop :=
  ∀ (s : State) (r : Request) (l : List Request), s.ctl.waiting = r :: l → s.ctl.acted = false →
    (r.service = 5 → r.formRefuses = none → s.objectRefuses r.asWrite = none →
      exec .commit s = .next (s.reply r (s.writeObject 0x2F00 0 1))) ∧
    (r.service = 2 → r.index = 0x2F00 → r.sub = 0 → r.value = 1 → r.formRefuses = none → s.objectRefuses r = none →
      exec .commit s = .next (s.reply r (s.writeObject 0x2F00 0 1))) ∧
    (r.service = 5 → r.index ≠ 0x2F00 ∨ r.sub ≠ 0 → exec .commit s = .next (s.refuseRequest r 0x10000002))

/-- R444. ABORT acts only while STATE is RUNNING; with START in the same write, on a RUNNING slot the abort takes effect and the START
is ignored, or refused through the dictionary, and on any other slot the write is judged as its START alone. A write of the dictionary
that is not refused acts with its response, before which in KEEP and TWIN JRN writes the image that holds it (R283, R381). -/
def Obligations.LegacyAbortActsOnlyWhileRunning : Prop :=
  ∀ (id k data : Nat) (i : Instr) (s : State), k < 64 → abortBit data = true →
    (s.portTakes id = true → s.slotOwner k = 0 → i = .legacyAbort (.window id) k data →
      ((s.slot k).state = 1 → ∃ t, exec i s = .next t ∧ (t.slot k).state = 3 ∧ (t.slot k).run = (s.slot k).run ∧
        (t.slot k).startIgnored = (startBit data || (s.slot k).startIgnored)) ∧
      ((s.slot k).state ≠ 1 → startBit data = false → ∃ t, exec i s = .next t ∧
        t.slot k = { s.slot k with ctrl := ctrlFields data }) ∧
      ((s.slot k).state ≠ 1 → startBit data = true → exec i s = exec (.legacyStart (.window id) k (data - 2)) s)) ∧
    (∀ r, s.slotOwner k = 1 → Claims.writes s r (0x8000 + k) 5 data → i = .legacyAbort .dictionary k data →
      (let waits (t : State) : Prop := s.journaled = true ∧ Claims.comes s t (0x8000 + k) 5 data ∧ t.slot k = s.slot k
       ((s.slot k).state = 1 → startBit data = true → ∃ t, exec i s = .next t ∧ (t.slot k).state = 3 ∧
         (t.slot k).run = (s.slot k).run ∧ t.ctl.lastAbort = 0x50000001) ∧
       ((s.slot k).state = 1 → startBit data = false → ∃ t, exec i s = .next t ∧
         (((t.slot k).state = 3 ∧ (t.slot k).run = (s.slot k).run) ∨ waits t)) ∧
       ((s.slot k).state ≠ 1 → startBit data = false → ∃ t, exec i s = .next t ∧
         (t.slot k = { s.slot k with ctrl := ctrlFields data } ∨ waits t)) ∧
       ((s.slot k).state ≠ 1 → startBit data = true →
         (s.canStart k = true → ∃ t, exec i s = .next t ∧
           (((t.slot k).state = 1 ∧ (t.slot k).workCtrl = ctrlFields data) ∨ waits t)) ∧
         (s.canStart k = false → exec i s = .next (s.refuseRequest r 0x50000001)))))
end

