-- ==== Sys2Proof/Laws/Tab.lean ====
section
/-! SUPPORT. The laws of the sparse table: read after write, and that every write keeps the canonical form. -/
namespace Sys2Proof

variable {α : Type}

theorem Tab.get_insert (d : Nat → α) (k k' : Nat) (a : α) (t : Tab α) :
    Tab.get d (Tab.insert k a t) k' = if k = k' then a else Tab.get d t k' := by
  induction t with
  | nil => simp [Tab.insert, Tab.get]
  | cons e r ih =>
    obtain ⟨i, b⟩ := e
    simp only [Tab.insert]
    split
    · simp [Tab.get]
    · split
      · subst_vars
        simp only [Tab.get]
        split <;> simp_all
      · simp only [Tab.get, ih]
        split <;> split <;> simp_all

theorem Tab.get_erase (d : Nat → α) (k k' : Nat) (t : Tab α) :
    Tab.get d (Tab.erase k t) k' = if k = k' then d k' else Tab.get d t k' := by
  induction t with
  | nil => simp [Tab.erase, Tab.get]
  | cons e r ih =>
    obtain ⟨i, b⟩ := e
    simp only [Tab.erase]
    split
    · subst_vars
      simp only [ih, Tab.get]
      split <;> simp_all
    · simp only [Tab.get, ih]
      split <;> split <;> simp_all

/-- A read after a write to the same index gives the value written, and every other index reads as before. -/
theorem Tab.get_put [DecidableEq α] (d : Nat → α) (t : Tab α) (k k' : Nat) (a : α) :
    Tab.get d (Tab.put d t k a) k' = if k = k' then a else Tab.get d t k' := by
  simp only [Tab.put]
  split
  · rw [Tab.get_erase]
    split <;> simp_all
  · exact Tab.get_insert d k k' a t

@[simp] theorem Tab.get_put_self [DecidableEq α] (d : Nat → α) (t : Tab α) (k : Nat) (a : α) :
    Tab.get d (Tab.put d t k a) k = a := by simp [Tab.get_put]

theorem Tab.get_put_ne [DecidableEq α] (d : Nat → α) (t : Tab α) {k k' : Nat} (a : α) (h : k ≠ k') :
    Tab.get d (Tab.put d t k a) k' = Tab.get d t k' := by simp [Tab.get_put, h]

@[simp] theorem Tab.get_nil (d : Nat → α) (k : Nat) : Tab.get d [] k = d k := rfl

theorem Tab.sortedFrom_mono {j k : Nat} (h : j ≤ k) (t : Tab α) (ht : Tab.sortedFrom k t = true) :
    Tab.sortedFrom j t = true := by
  cases t with
  | nil => rfl
  | cons e r =>
    simp only [Tab.sortedFrom, Bool.and_eq_true, decide_eq_true_eq] at *
    exact ⟨by omega, ht.2⟩

theorem Tab.sortedFrom_insert (k : Nat) (a : α) (t : Tab α) (j : Nat) (hj : j ≤ k) (ht : Tab.sortedFrom j t = true) :
    Tab.sortedFrom j (Tab.insert k a t) = true := by
  induction t generalizing j with
  | nil => simp [Tab.insert, Tab.sortedFrom, hj]
  | cons e r ih =>
    obtain ⟨i, b⟩ := e
    simp only [Tab.sortedFrom, Bool.and_eq_true, decide_eq_true_eq] at ht
    simp only [Tab.insert]
    split
    · simp only [Tab.sortedFrom, Bool.and_eq_true, decide_eq_true_eq]
      exact ⟨hj, by omega, ht.2⟩
    · split
      · subst_vars
        simp only [Tab.sortedFrom, Bool.and_eq_true, decide_eq_true_eq]
        exact ht
      · simp only [Tab.sortedFrom, Bool.and_eq_true, decide_eq_true_eq]
        exact ⟨ht.1, ih (i + 1) (by omega) ht.2⟩

theorem Tab.sortedFrom_erase (k : Nat) (t : Tab α) (j : Nat) (ht : Tab.sortedFrom j t = true) :
    Tab.sortedFrom j (Tab.erase k t) = true := by
  induction t generalizing j with
  | nil => rfl
  | cons e r ih =>
    obtain ⟨i, b⟩ := e
    simp only [Tab.sortedFrom, Bool.and_eq_true, decide_eq_true_eq] at ht
    simp only [Tab.erase]
    split
    · exact ih j (Tab.sortedFrom_mono (by omega) r ht.2)
    · simp only [Tab.sortedFrom, Bool.and_eq_true, decide_eq_true_eq]
      exact ⟨ht.1, ih (i + 1) ht.2⟩

theorem Tab.mem_insert {k : Nat} {a : α} {t : Tab α} {e : Nat × α} (h : e ∈ Tab.insert k a t) : e = (k, a) ∨ e ∈ t := by
  induction t with
  | nil => simpa [Tab.insert] using h
  | cons f r ih =>
    obtain ⟨i, b⟩ := f
    simp only [Tab.insert] at h
    split at h
    · simpa using h
    · split at h
      · rcases List.mem_cons.1 h with h | h
        · exact .inl h
        · exact .inr (List.mem_cons_of_mem _ h)
      · rcases List.mem_cons.1 h with h | h
        · exact .inr (h ▸ List.mem_cons_self ..)
        · rcases ih h with h | h
          · exact .inl h
          · exact .inr (List.mem_cons_of_mem _ h)

theorem Tab.mem_erase {k : Nat} {t : Tab α} {e : Nat × α} (h : e ∈ Tab.erase k t) : e ∈ t := by
  induction t with
  | nil => simp [Tab.erase] at h
  | cons f r ih =>
    obtain ⟨i, b⟩ := f
    simp only [Tab.erase] at h
    split at h
    · exact List.mem_cons_of_mem _ (ih h)
    · rcases List.mem_cons.1 h with h | h
      · exact h ▸ List.mem_cons_self ..
      · exact List.mem_cons_of_mem _ (ih h)

/-- A write keeps the canonical form. -/
theorem Tab.wf_put [DecidableEq α] (d : Nat → α) (t : Tab α) (k : Nat) (a : α) (h : Tab.wf d t = true) :
    Tab.wf d (Tab.put d t k a) = true := by
  simp only [Tab.wf, Bool.and_eq_true, List.all_eq_true, decide_eq_true_eq] at *
  simp only [Tab.put]
  split
  · exact ⟨Tab.sortedFrom_erase k t 0 h.1, fun e he => h.2 e (Tab.mem_erase he)⟩
  · refine ⟨Tab.sortedFrom_insert k a t 0 (Nat.zero_le _) h.1, fun e he => ?_⟩
    rcases Tab.mem_insert he with rfl | he
    · assumption
    · exact h.2 e he

/-- Writes in a list keep the canonical form. -/
theorem Tab.wf_putAll [DecidableEq α] (d : Nat → α) (l : List (Nat × α)) (t : Tab α) (h : Tab.wf d t = true) :
    Tab.wf d (Tab.putAll d t l) = true := by
  induction l generalizing t with
  | nil => exact h
  | cons e r ih => exact ih _ (Tab.wf_put d t e.1 e.2 h)

/-- An index that no write of the list names reads as before. -/
theorem Tab.get_putAll_ne [DecidableEq α] (d : Nat → α) (l : List (Nat × α)) (t : Tab α) (k : Nat)
    (h : ∀ e ∈ l, e.1 ≠ k) : Tab.get d (Tab.putAll d t l) k = Tab.get d t k := by
  induction l generalizing t with
  | nil => rfl
  | cons e r ih =>
    obtain ⟨i, b⟩ := e
    rw [Tab.putAll, ih _ fun f hf => h f (List.mem_cons_of_mem _ hf),
      Tab.get_put_ne _ _ _ (h (i, b) (List.mem_cons_self ..))]

end Sys2Proof
end

