-- ==== Sys2Proof/Laws/State.lean ====
section
/-! SUPPORT. What each named update of the state leaves in each field, so that no proof unfolds a record update, and what
each indexed read gives after a write. -/
namespace Sys2Proof.Machine

variable (s : State)

/-! ## Reads after writes -/

theorem State.ctx_setCtx (k k' : Nat) (x : Ctx) : (s.setCtx k x).ctx k' = if k = k' then x else s.ctx k' :=
  Tab.get_put ..
@[simp] theorem State.ctx_setCtx_self (k : Nat) (x : Ctx) : (s.setCtx k x).ctx k = x := Tab.get_put_self ..
theorem State.port_setPort (k k' : Nat) (x : Port) : (s.setPort k x).port k' = if k = k' then x else s.port k' :=
  Tab.get_put ..
@[simp] theorem State.port_setPort_self (k : Nat) (x : Port) : (s.setPort k x).port k = x := Tab.get_put_self ..
theorem State.galley_setGalley (k k' : Nat) (x : Galley) : (s.setGalley k x).galley k' = if k = k' then x else s.galley k' :=
  Tab.get_put ..
@[simp] theorem State.galley_setGalley_self (k : Nat) (x : Galley) : (s.setGalley k x).galley k = x := Tab.get_put_self ..
theorem State.slot_setSlot (k k' : Nat) (x : Slot) : (s.setSlot k x).slot k' = if k = k' then x else s.slot k' :=
  Tab.get_put ..
@[simp] theorem State.slot_setSlot_self (k : Nat) (x : Slot) : (s.setSlot k x).slot k = x := Tab.get_put_self ..
theorem State.link_setLink (k k' : Nat) (x : Link) : (s.setLink k x).link k' = if k = k' then x else s.link k' :=
  Tab.get_put ..
@[simp] theorem State.link_setLink_self (k : Nat) (x : Link) : (s.setLink k x).link k = x := Tab.get_put_self ..
theorem State.stashPort_setStash (k k' : Nat) (x : StashPort) : (s.setStash k x).stashPort k' = if k = k' then x else s.stashPort k' :=
  Tab.get_put ..
@[simp] theorem State.stashPort_setStash_self (k : Nat) (x : StashPort) : (s.setStash k x).stashPort k = x := Tab.get_put_self ..
theorem State.island_setIsland (k k' : Nat) (x : Island) : (s.setIsland k x).island k' = if k = k' then x else s.island k' :=
  Tab.get_put ..
@[simp] theorem State.island_setIsland_self (k : Nat) (x : Island) : (s.setIsland k x).island k = x := Tab.get_put_self ..
theorem State.lane_setLane (k k' : Nat) (x : Nat) : (s.setLane k x).lane k' = if k = k' then x else s.lane k' :=
  Tab.get_put ..
@[simp] theorem State.lane_setLane_self (k : Nat) (x : Nat) : (s.setLane k x).lane k = x := Tab.get_put_self ..
@[simp] theorem State.obj_setObj_self (i j v : Nat) : (s.setObj i j v).obj i j = v := Tab.get_put_self ..
theorem State.ctx_modCtx (c c' : Nat) (f : Ctx → Ctx) : (s.modCtx c f).ctx c' = if c = c' then f (s.ctx c) else s.ctx c' :=
  Tab.get_put ..
@[simp] theorem State.ctx_modCtx_self (c : Nat) (f : Ctx → Ctx) : (s.modCtx c f).ctx c = f (s.ctx c) := Tab.get_put_self ..
theorem State.byteAt_land_ne (l : List (Nat × Byte)) (a : Nat) (h : ∀ e ∈ l, e.1 ≠ a) : (s.land l).byteAt a = s.byteAt a :=
  Tab.get_putAll_ne _ _ _ _ h

/-! ## An indexed read rests on its own component -/

theorem State.ctx_congr {s t : State} (h : t.ctxs = s.ctxs) (k : Nat) : t.ctx k = s.ctx k := by
  simp only [State.ctx, h]
theorem State.port_congr {s t : State} (h : t.ports = s.ports) (k : Nat) : t.port k = s.port k := by
  simp only [State.port, h]
theorem State.galley_congr {s t : State} (h : t.pool = s.pool) (k : Nat) : t.galley k = s.galley k := by
  simp only [State.galley, h]
theorem State.slot_congr {s t : State} (h : t.sched = s.sched) (k : Nat) : t.slot k = s.slot k := by
  simp only [State.slot, h]
theorem State.link_congr {s t : State} (h : t.fab = s.fab) (k : Nat) : t.link k = s.link k := by
  simp only [State.link, h]
theorem State.stashPort_congr {s t : State} (h : t.stash = s.stash) (k : Nat) : t.stashPort k = s.stashPort k := by
  simp only [State.stashPort, h]
theorem State.island_congr {s t : State} (h : t.islands = s.islands) (k : Nat) : t.island k = s.island k := by
  simp only [State.island, h]
theorem State.lane_congr {s t : State} (h : t.sched = s.sched) (k : Nat) : t.lane k = s.lane k := by
  simp only [State.lane, h]
theorem State.byteAt_congr {s t : State} (h : t.mem = s.mem) (a : Nat) : t.byteAt a = s.byteAt a := by
  simp only [State.byteAt, h]
theorem State.obj_congr {s t : State} (h : t.dict = s.dict) (i j : Nat) : t.obj i j = s.obj i j := by
  simp only [State.obj, h]

/-! ## Updates by field -/

@[simp] theorem State.setCtx_pending (c : Nat) (x : Ctx) : (s.setCtx c x).pending = s.pending := rfl
@[simp] theorem State.setCtx_free (c : Nat) (x : Ctx) : (s.setCtx c x).free = s.free := rfl
@[simp] theorem State.setCtx_straps (c : Nat) (x : Ctx) : (s.setCtx c x).straps = s.straps := rfl
@[simp] theorem State.setCtx_mem (c : Nat) (x : Ctx) : (s.setCtx c x).mem = s.mem := rfl
@[simp] theorem State.setCtx_ctl (c : Nat) (x : Ctx) : (s.setCtx c x).ctl = s.ctl := rfl
@[simp] theorem State.setCtx_dict (c : Nat) (x : Ctx) : (s.setCtx c x).dict = s.dict := rfl
@[simp] theorem State.setCtx_prot (c : Nat) (x : Ctx) : (s.setCtx c x).prot = s.prot := rfl
@[simp] theorem State.setCtx_sched (c : Nat) (x : Ctx) : (s.setCtx c x).sched = s.sched := rfl
@[simp] theorem State.setCtx_ports (c : Nat) (x : Ctx) : (s.setCtx c x).ports = s.ports := rfl
@[simp] theorem State.setCtx_pool (c : Nat) (x : Ctx) : (s.setCtx c x).pool = s.pool := rfl
@[simp] theorem State.setCtx_jrn (c : Nat) (x : Ctx) : (s.setCtx c x).jrn = s.jrn := rfl
@[simp] theorem State.setCtx_twin (c : Nat) (x : Ctx) : (s.setCtx c x).twin = s.twin := rfl
@[simp] theorem State.setCtx_fab (c : Nat) (x : Ctx) : (s.setCtx c x).fab = s.fab := rfl
@[simp] theorem State.setCtx_islands (c : Nat) (x : Ctx) : (s.setCtx c x).islands = s.islands := rfl
@[simp] theorem State.setCtx_stash (c : Nat) (x : Ctx) : (s.setCtx c x).stash = s.stash := rfl
@[simp] theorem State.setCtx_scrub (c : Nat) (x : Ctx) : (s.setCtx c x).scrub = s.scrub := rfl
@[simp] theorem State.setCtx_tapReset (c : Nat) (x : Ctx) : (s.setCtx c x).tapReset = s.tapReset := rfl
@[simp] theorem State.setPort_pending (p : Nat) (x : Port) : (s.setPort p x).pending = s.pending := rfl
@[simp] theorem State.setPort_free (p : Nat) (x : Port) : (s.setPort p x).free = s.free := rfl
@[simp] theorem State.setPort_straps (p : Nat) (x : Port) : (s.setPort p x).straps = s.straps := rfl
@[simp] theorem State.setPort_mem (p : Nat) (x : Port) : (s.setPort p x).mem = s.mem := rfl
@[simp] theorem State.setPort_ctl (p : Nat) (x : Port) : (s.setPort p x).ctl = s.ctl := rfl
@[simp] theorem State.setPort_dict (p : Nat) (x : Port) : (s.setPort p x).dict = s.dict := rfl
@[simp] theorem State.setPort_prot (p : Nat) (x : Port) : (s.setPort p x).prot = s.prot := rfl
@[simp] theorem State.setPort_ctxs (p : Nat) (x : Port) : (s.setPort p x).ctxs = s.ctxs := rfl
@[simp] theorem State.setPort_sched (p : Nat) (x : Port) : (s.setPort p x).sched = s.sched := rfl
@[simp] theorem State.setPort_pool (p : Nat) (x : Port) : (s.setPort p x).pool = s.pool := rfl
@[simp] theorem State.setPort_jrn (p : Nat) (x : Port) : (s.setPort p x).jrn = s.jrn := rfl
@[simp] theorem State.setPort_twin (p : Nat) (x : Port) : (s.setPort p x).twin = s.twin := rfl
@[simp] theorem State.setPort_fab (p : Nat) (x : Port) : (s.setPort p x).fab = s.fab := rfl
@[simp] theorem State.setPort_islands (p : Nat) (x : Port) : (s.setPort p x).islands = s.islands := rfl
@[simp] theorem State.setPort_stash (p : Nat) (x : Port) : (s.setPort p x).stash = s.stash := rfl
@[simp] theorem State.setPort_scrub (p : Nat) (x : Port) : (s.setPort p x).scrub = s.scrub := rfl
@[simp] theorem State.setPort_tapReset (p : Nat) (x : Port) : (s.setPort p x).tapReset = s.tapReset := rfl
@[simp] theorem State.setGalley_pending (g : Nat) (x : Galley) : (s.setGalley g x).pending = s.pending := rfl
@[simp] theorem State.setGalley_free (g : Nat) (x : Galley) : (s.setGalley g x).free = s.free := rfl
@[simp] theorem State.setGalley_straps (g : Nat) (x : Galley) : (s.setGalley g x).straps = s.straps := rfl
@[simp] theorem State.setGalley_mem (g : Nat) (x : Galley) : (s.setGalley g x).mem = s.mem := rfl
@[simp] theorem State.setGalley_ctl (g : Nat) (x : Galley) : (s.setGalley g x).ctl = s.ctl := rfl
@[simp] theorem State.setGalley_dict (g : Nat) (x : Galley) : (s.setGalley g x).dict = s.dict := rfl
@[simp] theorem State.setGalley_prot (g : Nat) (x : Galley) : (s.setGalley g x).prot = s.prot := rfl
@[simp] theorem State.setGalley_ctxs (g : Nat) (x : Galley) : (s.setGalley g x).ctxs = s.ctxs := rfl
@[simp] theorem State.setGalley_sched (g : Nat) (x : Galley) : (s.setGalley g x).sched = s.sched := rfl
@[simp] theorem State.setGalley_ports (g : Nat) (x : Galley) : (s.setGalley g x).ports = s.ports := rfl
@[simp] theorem State.setGalley_jrn (g : Nat) (x : Galley) : (s.setGalley g x).jrn = s.jrn := rfl
@[simp] theorem State.setGalley_twin (g : Nat) (x : Galley) : (s.setGalley g x).twin = s.twin := rfl
@[simp] theorem State.setGalley_fab (g : Nat) (x : Galley) : (s.setGalley g x).fab = s.fab := rfl
@[simp] theorem State.setGalley_islands (g : Nat) (x : Galley) : (s.setGalley g x).islands = s.islands := rfl
@[simp] theorem State.setGalley_stash (g : Nat) (x : Galley) : (s.setGalley g x).stash = s.stash := rfl
@[simp] theorem State.setGalley_scrub (g : Nat) (x : Galley) : (s.setGalley g x).scrub = s.scrub := rfl
@[simp] theorem State.setGalley_tapReset (g : Nat) (x : Galley) : (s.setGalley g x).tapReset = s.tapReset := rfl
@[simp] theorem State.setSlot_pending (k : Nat) (x : Slot) : (s.setSlot k x).pending = s.pending := rfl
@[simp] theorem State.setSlot_free (k : Nat) (x : Slot) : (s.setSlot k x).free = s.free := rfl
@[simp] theorem State.setSlot_straps (k : Nat) (x : Slot) : (s.setSlot k x).straps = s.straps := rfl
@[simp] theorem State.setSlot_mem (k : Nat) (x : Slot) : (s.setSlot k x).mem = s.mem := rfl
@[simp] theorem State.setSlot_ctl (k : Nat) (x : Slot) : (s.setSlot k x).ctl = s.ctl := rfl
@[simp] theorem State.setSlot_dict (k : Nat) (x : Slot) : (s.setSlot k x).dict = s.dict := rfl
@[simp] theorem State.setSlot_prot (k : Nat) (x : Slot) : (s.setSlot k x).prot = s.prot := rfl
@[simp] theorem State.setSlot_ctxs (k : Nat) (x : Slot) : (s.setSlot k x).ctxs = s.ctxs := rfl
@[simp] theorem State.setSlot_ports (k : Nat) (x : Slot) : (s.setSlot k x).ports = s.ports := rfl
@[simp] theorem State.setSlot_pool (k : Nat) (x : Slot) : (s.setSlot k x).pool = s.pool := rfl
@[simp] theorem State.setSlot_jrn (k : Nat) (x : Slot) : (s.setSlot k x).jrn = s.jrn := rfl
@[simp] theorem State.setSlot_twin (k : Nat) (x : Slot) : (s.setSlot k x).twin = s.twin := rfl
@[simp] theorem State.setSlot_fab (k : Nat) (x : Slot) : (s.setSlot k x).fab = s.fab := rfl
@[simp] theorem State.setSlot_islands (k : Nat) (x : Slot) : (s.setSlot k x).islands = s.islands := rfl
@[simp] theorem State.setSlot_stash (k : Nat) (x : Slot) : (s.setSlot k x).stash = s.stash := rfl
@[simp] theorem State.setSlot_scrub (k : Nat) (x : Slot) : (s.setSlot k x).scrub = s.scrub := rfl
@[simp] theorem State.setSlot_tapReset (k : Nat) (x : Slot) : (s.setSlot k x).tapReset = s.tapReset := rfl
@[simp] theorem State.setLink_pending (l : Nat) (x : Link) : (s.setLink l x).pending = s.pending := rfl
@[simp] theorem State.setLink_free (l : Nat) (x : Link) : (s.setLink l x).free = s.free := rfl
@[simp] theorem State.setLink_straps (l : Nat) (x : Link) : (s.setLink l x).straps = s.straps := rfl
@[simp] theorem State.setLink_mem (l : Nat) (x : Link) : (s.setLink l x).mem = s.mem := rfl
@[simp] theorem State.setLink_ctl (l : Nat) (x : Link) : (s.setLink l x).ctl = s.ctl := rfl
@[simp] theorem State.setLink_dict (l : Nat) (x : Link) : (s.setLink l x).dict = s.dict := rfl
@[simp] theorem State.setLink_prot (l : Nat) (x : Link) : (s.setLink l x).prot = s.prot := rfl
@[simp] theorem State.setLink_ctxs (l : Nat) (x : Link) : (s.setLink l x).ctxs = s.ctxs := rfl
@[simp] theorem State.setLink_sched (l : Nat) (x : Link) : (s.setLink l x).sched = s.sched := rfl
@[simp] theorem State.setLink_ports (l : Nat) (x : Link) : (s.setLink l x).ports = s.ports := rfl
@[simp] theorem State.setLink_pool (l : Nat) (x : Link) : (s.setLink l x).pool = s.pool := rfl
@[simp] theorem State.setLink_jrn (l : Nat) (x : Link) : (s.setLink l x).jrn = s.jrn := rfl
@[simp] theorem State.setLink_twin (l : Nat) (x : Link) : (s.setLink l x).twin = s.twin := rfl
@[simp] theorem State.setLink_islands (l : Nat) (x : Link) : (s.setLink l x).islands = s.islands := rfl
@[simp] theorem State.setLink_stash (l : Nat) (x : Link) : (s.setLink l x).stash = s.stash := rfl
@[simp] theorem State.setLink_scrub (l : Nat) (x : Link) : (s.setLink l x).scrub = s.scrub := rfl
@[simp] theorem State.setLink_tapReset (l : Nat) (x : Link) : (s.setLink l x).tapReset = s.tapReset := rfl
@[simp] theorem State.setStash_pending (n : Nat) (x : StashPort) : (s.setStash n x).pending = s.pending := rfl
@[simp] theorem State.setStash_free (n : Nat) (x : StashPort) : (s.setStash n x).free = s.free := rfl
@[simp] theorem State.setStash_straps (n : Nat) (x : StashPort) : (s.setStash n x).straps = s.straps := rfl
@[simp] theorem State.setStash_mem (n : Nat) (x : StashPort) : (s.setStash n x).mem = s.mem := rfl
@[simp] theorem State.setStash_ctl (n : Nat) (x : StashPort) : (s.setStash n x).ctl = s.ctl := rfl
@[simp] theorem State.setStash_dict (n : Nat) (x : StashPort) : (s.setStash n x).dict = s.dict := rfl
@[simp] theorem State.setStash_prot (n : Nat) (x : StashPort) : (s.setStash n x).prot = s.prot := rfl
@[simp] theorem State.setStash_ctxs (n : Nat) (x : StashPort) : (s.setStash n x).ctxs = s.ctxs := rfl
@[simp] theorem State.setStash_sched (n : Nat) (x : StashPort) : (s.setStash n x).sched = s.sched := rfl
@[simp] theorem State.setStash_ports (n : Nat) (x : StashPort) : (s.setStash n x).ports = s.ports := rfl
@[simp] theorem State.setStash_pool (n : Nat) (x : StashPort) : (s.setStash n x).pool = s.pool := rfl
@[simp] theorem State.setStash_jrn (n : Nat) (x : StashPort) : (s.setStash n x).jrn = s.jrn := rfl
@[simp] theorem State.setStash_twin (n : Nat) (x : StashPort) : (s.setStash n x).twin = s.twin := rfl
@[simp] theorem State.setStash_fab (n : Nat) (x : StashPort) : (s.setStash n x).fab = s.fab := rfl
@[simp] theorem State.setStash_islands (n : Nat) (x : StashPort) : (s.setStash n x).islands = s.islands := rfl
@[simp] theorem State.setStash_scrub (n : Nat) (x : StashPort) : (s.setStash n x).scrub = s.scrub := rfl
@[simp] theorem State.setStash_tapReset (n : Nat) (x : StashPort) : (s.setStash n x).tapReset = s.tapReset := rfl
@[simp] theorem State.setIsland_pending (i : Nat) (x : Island) : (s.setIsland i x).pending = s.pending := rfl
@[simp] theorem State.setIsland_free (i : Nat) (x : Island) : (s.setIsland i x).free = s.free := rfl
@[simp] theorem State.setIsland_straps (i : Nat) (x : Island) : (s.setIsland i x).straps = s.straps := rfl
@[simp] theorem State.setIsland_mem (i : Nat) (x : Island) : (s.setIsland i x).mem = s.mem := rfl
@[simp] theorem State.setIsland_ctl (i : Nat) (x : Island) : (s.setIsland i x).ctl = s.ctl := rfl
@[simp] theorem State.setIsland_dict (i : Nat) (x : Island) : (s.setIsland i x).dict = s.dict := rfl
@[simp] theorem State.setIsland_prot (i : Nat) (x : Island) : (s.setIsland i x).prot = s.prot := rfl
@[simp] theorem State.setIsland_ctxs (i : Nat) (x : Island) : (s.setIsland i x).ctxs = s.ctxs := rfl
@[simp] theorem State.setIsland_sched (i : Nat) (x : Island) : (s.setIsland i x).sched = s.sched := rfl
@[simp] theorem State.setIsland_ports (i : Nat) (x : Island) : (s.setIsland i x).ports = s.ports := rfl
@[simp] theorem State.setIsland_pool (i : Nat) (x : Island) : (s.setIsland i x).pool = s.pool := rfl
@[simp] theorem State.setIsland_jrn (i : Nat) (x : Island) : (s.setIsland i x).jrn = s.jrn := rfl
@[simp] theorem State.setIsland_twin (i : Nat) (x : Island) : (s.setIsland i x).twin = s.twin := rfl
@[simp] theorem State.setIsland_fab (i : Nat) (x : Island) : (s.setIsland i x).fab = s.fab := rfl
@[simp] theorem State.setIsland_stash (i : Nat) (x : Island) : (s.setIsland i x).stash = s.stash := rfl
@[simp] theorem State.setIsland_scrub (i : Nat) (x : Island) : (s.setIsland i x).scrub = s.scrub := rfl
@[simp] theorem State.setIsland_tapReset (i : Nat) (x : Island) : (s.setIsland i x).tapReset = s.tapReset := rfl
@[simp] theorem State.setLane_pending (l v : Nat) : (s.setLane l v).pending = s.pending := rfl
@[simp] theorem State.setLane_free (l v : Nat) : (s.setLane l v).free = s.free := rfl
@[simp] theorem State.setLane_straps (l v : Nat) : (s.setLane l v).straps = s.straps := rfl
@[simp] theorem State.setLane_mem (l v : Nat) : (s.setLane l v).mem = s.mem := rfl
@[simp] theorem State.setLane_ctl (l v : Nat) : (s.setLane l v).ctl = s.ctl := rfl
@[simp] theorem State.setLane_dict (l v : Nat) : (s.setLane l v).dict = s.dict := rfl
@[simp] theorem State.setLane_prot (l v : Nat) : (s.setLane l v).prot = s.prot := rfl
@[simp] theorem State.setLane_ctxs (l v : Nat) : (s.setLane l v).ctxs = s.ctxs := rfl
@[simp] theorem State.setLane_ports (l v : Nat) : (s.setLane l v).ports = s.ports := rfl
@[simp] theorem State.setLane_pool (l v : Nat) : (s.setLane l v).pool = s.pool := rfl
@[simp] theorem State.setLane_jrn (l v : Nat) : (s.setLane l v).jrn = s.jrn := rfl
@[simp] theorem State.setLane_twin (l v : Nat) : (s.setLane l v).twin = s.twin := rfl
@[simp] theorem State.setLane_fab (l v : Nat) : (s.setLane l v).fab = s.fab := rfl
@[simp] theorem State.setLane_islands (l v : Nat) : (s.setLane l v).islands = s.islands := rfl
@[simp] theorem State.setLane_stash (l v : Nat) : (s.setLane l v).stash = s.stash := rfl
@[simp] theorem State.setLane_scrub (l v : Nat) : (s.setLane l v).scrub = s.scrub := rfl
@[simp] theorem State.setLane_tapReset (l v : Nat) : (s.setLane l v).tapReset = s.tapReset := rfl
@[simp] theorem State.setObj_pending (i j v : Nat) : (s.setObj i j v).pending = s.pending := rfl
@[simp] theorem State.setObj_free (i j v : Nat) : (s.setObj i j v).free = s.free := rfl
@[simp] theorem State.setObj_straps (i j v : Nat) : (s.setObj i j v).straps = s.straps := rfl
@[simp] theorem State.setObj_mem (i j v : Nat) : (s.setObj i j v).mem = s.mem := rfl
@[simp] theorem State.setObj_ctl (i j v : Nat) : (s.setObj i j v).ctl = s.ctl := rfl
@[simp] theorem State.setObj_prot (i j v : Nat) : (s.setObj i j v).prot = s.prot := rfl
@[simp] theorem State.setObj_ctxs (i j v : Nat) : (s.setObj i j v).ctxs = s.ctxs := rfl
@[simp] theorem State.setObj_sched (i j v : Nat) : (s.setObj i j v).sched = s.sched := rfl
@[simp] theorem State.setObj_ports (i j v : Nat) : (s.setObj i j v).ports = s.ports := rfl
@[simp] theorem State.setObj_pool (i j v : Nat) : (s.setObj i j v).pool = s.pool := rfl
@[simp] theorem State.setObj_jrn (i j v : Nat) : (s.setObj i j v).jrn = s.jrn := rfl
@[simp] theorem State.setObj_twin (i j v : Nat) : (s.setObj i j v).twin = s.twin := rfl
@[simp] theorem State.setObj_fab (i j v : Nat) : (s.setObj i j v).fab = s.fab := rfl
@[simp] theorem State.setObj_islands (i j v : Nat) : (s.setObj i j v).islands = s.islands := rfl
@[simp] theorem State.setObj_stash (i j v : Nat) : (s.setObj i j v).stash = s.stash := rfl
@[simp] theorem State.setObj_scrub (i j v : Nat) : (s.setObj i j v).scrub = s.scrub := rfl
@[simp] theorem State.setObj_tapReset (i j v : Nat) : (s.setObj i j v).tapReset = s.tapReset := rfl
@[simp] theorem State.land_pending (l : List (Nat × Byte)) : (s.land l).pending = s.pending := rfl
@[simp] theorem State.land_free (l : List (Nat × Byte)) : (s.land l).free = s.free := rfl
@[simp] theorem State.land_straps (l : List (Nat × Byte)) : (s.land l).straps = s.straps := rfl
@[simp] theorem State.land_ctl (l : List (Nat × Byte)) : (s.land l).ctl = s.ctl := rfl
@[simp] theorem State.land_dict (l : List (Nat × Byte)) : (s.land l).dict = s.dict := rfl
@[simp] theorem State.land_prot (l : List (Nat × Byte)) : (s.land l).prot = s.prot := rfl
@[simp] theorem State.land_ctxs (l : List (Nat × Byte)) : (s.land l).ctxs = s.ctxs := rfl
@[simp] theorem State.land_sched (l : List (Nat × Byte)) : (s.land l).sched = s.sched := rfl
@[simp] theorem State.land_ports (l : List (Nat × Byte)) : (s.land l).ports = s.ports := rfl
@[simp] theorem State.land_pool (l : List (Nat × Byte)) : (s.land l).pool = s.pool := rfl
@[simp] theorem State.land_jrn (l : List (Nat × Byte)) : (s.land l).jrn = s.jrn := rfl
@[simp] theorem State.land_twin (l : List (Nat × Byte)) : (s.land l).twin = s.twin := rfl
@[simp] theorem State.land_fab (l : List (Nat × Byte)) : (s.land l).fab = s.fab := rfl
@[simp] theorem State.land_islands (l : List (Nat × Byte)) : (s.land l).islands = s.islands := rfl
@[simp] theorem State.land_stash (l : List (Nat × Byte)) : (s.land l).stash = s.stash := rfl
@[simp] theorem State.land_scrub (l : List (Nat × Byte)) : (s.land l).scrub = s.scrub := rfl
@[simp] theorem State.land_tapReset (l : List (Nat × Byte)) : (s.land l).tapReset = s.tapReset := rfl
@[simp] theorem State.writeBytes_pending (a : Nat) (l : List Byte) : (s.writeBytes a l).pending = s.pending := rfl
@[simp] theorem State.writeBytes_free (a : Nat) (l : List Byte) : (s.writeBytes a l).free = s.free := rfl
@[simp] theorem State.writeBytes_straps (a : Nat) (l : List Byte) : (s.writeBytes a l).straps = s.straps := rfl
@[simp] theorem State.writeBytes_ctl (a : Nat) (l : List Byte) : (s.writeBytes a l).ctl = s.ctl := rfl
@[simp] theorem State.writeBytes_dict (a : Nat) (l : List Byte) : (s.writeBytes a l).dict = s.dict := rfl
@[simp] theorem State.writeBytes_prot (a : Nat) (l : List Byte) : (s.writeBytes a l).prot = s.prot := rfl
@[simp] theorem State.writeBytes_ctxs (a : Nat) (l : List Byte) : (s.writeBytes a l).ctxs = s.ctxs := rfl
@[simp] theorem State.writeBytes_sched (a : Nat) (l : List Byte) : (s.writeBytes a l).sched = s.sched := rfl
@[simp] theorem State.writeBytes_ports (a : Nat) (l : List Byte) : (s.writeBytes a l).ports = s.ports := rfl
@[simp] theorem State.writeBytes_pool (a : Nat) (l : List Byte) : (s.writeBytes a l).pool = s.pool := rfl
@[simp] theorem State.writeBytes_jrn (a : Nat) (l : List Byte) : (s.writeBytes a l).jrn = s.jrn := rfl
@[simp] theorem State.writeBytes_twin (a : Nat) (l : List Byte) : (s.writeBytes a l).twin = s.twin := rfl
@[simp] theorem State.writeBytes_fab (a : Nat) (l : List Byte) : (s.writeBytes a l).fab = s.fab := rfl
@[simp] theorem State.writeBytes_islands (a : Nat) (l : List Byte) : (s.writeBytes a l).islands = s.islands := rfl
@[simp] theorem State.writeBytes_stash (a : Nat) (l : List Byte) : (s.writeBytes a l).stash = s.stash := rfl
@[simp] theorem State.writeBytes_scrub (a : Nat) (l : List Byte) : (s.writeBytes a l).scrub = s.scrub := rfl
@[simp] theorem State.writeBytes_tapReset (a : Nat) (l : List Byte) : (s.writeBytes a l).tapReset = s.tapReset := rfl
@[simp] theorem State.post_pending (a b : Nat) : (s.post a b).pending = s.pending := rfl
@[simp] theorem State.post_free (a b : Nat) : (s.post a b).free = s.free := rfl
@[simp] theorem State.post_straps (a b : Nat) : (s.post a b).straps = s.straps := rfl
@[simp] theorem State.post_mem (a b : Nat) : (s.post a b).mem = s.mem := rfl
@[simp] theorem State.post_dict (a b : Nat) : (s.post a b).dict = s.dict := rfl
@[simp] theorem State.post_prot (a b : Nat) : (s.post a b).prot = s.prot := rfl
@[simp] theorem State.post_ctxs (a b : Nat) : (s.post a b).ctxs = s.ctxs := rfl
@[simp] theorem State.post_sched (a b : Nat) : (s.post a b).sched = s.sched := rfl
@[simp] theorem State.post_ports (a b : Nat) : (s.post a b).ports = s.ports := rfl
@[simp] theorem State.post_pool (a b : Nat) : (s.post a b).pool = s.pool := rfl
@[simp] theorem State.post_jrn (a b : Nat) : (s.post a b).jrn = s.jrn := rfl
@[simp] theorem State.post_twin (a b : Nat) : (s.post a b).twin = s.twin := rfl
@[simp] theorem State.post_fab (a b : Nat) : (s.post a b).fab = s.fab := rfl
@[simp] theorem State.post_islands (a b : Nat) : (s.post a b).islands = s.islands := rfl
@[simp] theorem State.post_stash (a b : Nat) : (s.post a b).stash = s.stash := rfl
@[simp] theorem State.post_scrub (a b : Nat) : (s.post a b).scrub = s.scrub := rfl
@[simp] theorem State.post_tapReset (a b : Nat) : (s.post a b).tapReset = s.tapReset := rfl
@[simp] theorem State.nextFree_pending : (s.nextFree).pending = s.pending := rfl
@[simp] theorem State.nextFree_straps : (s.nextFree).straps = s.straps := rfl
@[simp] theorem State.nextFree_mem : (s.nextFree).mem = s.mem := rfl
@[simp] theorem State.nextFree_ctl : (s.nextFree).ctl = s.ctl := rfl
@[simp] theorem State.nextFree_dict : (s.nextFree).dict = s.dict := rfl
@[simp] theorem State.nextFree_prot : (s.nextFree).prot = s.prot := rfl
@[simp] theorem State.nextFree_ctxs : (s.nextFree).ctxs = s.ctxs := rfl
@[simp] theorem State.nextFree_sched : (s.nextFree).sched = s.sched := rfl
@[simp] theorem State.nextFree_ports : (s.nextFree).ports = s.ports := rfl
@[simp] theorem State.nextFree_pool : (s.nextFree).pool = s.pool := rfl
@[simp] theorem State.nextFree_jrn : (s.nextFree).jrn = s.jrn := rfl
@[simp] theorem State.nextFree_twin : (s.nextFree).twin = s.twin := rfl
@[simp] theorem State.nextFree_fab : (s.nextFree).fab = s.fab := rfl
@[simp] theorem State.nextFree_islands : (s.nextFree).islands = s.islands := rfl
@[simp] theorem State.nextFree_stash : (s.nextFree).stash = s.stash := rfl
@[simp] theorem State.nextFree_scrub : (s.nextFree).scrub = s.scrub := rfl
@[simp] theorem State.nextFree_tapReset : (s.nextFree).tapReset = s.tapReset := rfl
@[simp] theorem State.present_pending (p : Nat) (w : Bool) (r : PortReq) : (s.present p w r).pending = s.pending := rfl
@[simp] theorem State.present_free (p : Nat) (w : Bool) (r : PortReq) : (s.present p w r).free = s.free := rfl
@[simp] theorem State.present_straps (p : Nat) (w : Bool) (r : PortReq) : (s.present p w r).straps = s.straps := rfl
@[simp] theorem State.present_mem (p : Nat) (w : Bool) (r : PortReq) : (s.present p w r).mem = s.mem := rfl
@[simp] theorem State.present_ctl (p : Nat) (w : Bool) (r : PortReq) : (s.present p w r).ctl = s.ctl := rfl
@[simp] theorem State.present_dict (p : Nat) (w : Bool) (r : PortReq) : (s.present p w r).dict = s.dict := rfl
@[simp] theorem State.present_prot (p : Nat) (w : Bool) (r : PortReq) : (s.present p w r).prot = s.prot := rfl
@[simp] theorem State.present_ctxs (p : Nat) (w : Bool) (r : PortReq) : (s.present p w r).ctxs = s.ctxs := rfl
@[simp] theorem State.present_sched (p : Nat) (w : Bool) (r : PortReq) : (s.present p w r).sched = s.sched := rfl
@[simp] theorem State.present_pool (p : Nat) (w : Bool) (r : PortReq) : (s.present p w r).pool = s.pool := rfl
@[simp] theorem State.present_jrn (p : Nat) (w : Bool) (r : PortReq) : (s.present p w r).jrn = s.jrn := rfl
@[simp] theorem State.present_twin (p : Nat) (w : Bool) (r : PortReq) : (s.present p w r).twin = s.twin := rfl
@[simp] theorem State.present_fab (p : Nat) (w : Bool) (r : PortReq) : (s.present p w r).fab = s.fab := rfl
@[simp] theorem State.present_islands (p : Nat) (w : Bool) (r : PortReq) : (s.present p w r).islands = s.islands := rfl
@[simp] theorem State.present_stash (p : Nat) (w : Bool) (r : PortReq) : (s.present p w r).stash = s.stash := rfl
@[simp] theorem State.present_scrub (p : Nat) (w : Bool) (r : PortReq) : (s.present p w r).scrub = s.scrub := rfl
@[simp] theorem State.present_tapReset (p : Nat) (w : Bool) (r : PortReq) : (s.present p w r).tapReset = s.tapReset := rfl
@[simp] theorem State.showResponse_pending (r : DbResponse) : (s.showResponse r).pending = s.pending := rfl
@[simp] theorem State.showResponse_free (r : DbResponse) : (s.showResponse r).free = s.free := rfl
@[simp] theorem State.showResponse_straps (r : DbResponse) : (s.showResponse r).straps = s.straps := rfl
@[simp] theorem State.showResponse_mem (r : DbResponse) : (s.showResponse r).mem = s.mem := rfl
@[simp] theorem State.showResponse_ctl (r : DbResponse) : (s.showResponse r).ctl = s.ctl := rfl
@[simp] theorem State.showResponse_dict (r : DbResponse) : (s.showResponse r).dict = s.dict := rfl
@[simp] theorem State.showResponse_prot (r : DbResponse) : (s.showResponse r).prot = s.prot := rfl
@[simp] theorem State.showResponse_ctxs (r : DbResponse) : (s.showResponse r).ctxs = s.ctxs := rfl
@[simp] theorem State.showResponse_ports (r : DbResponse) : (s.showResponse r).ports = s.ports := rfl
@[simp] theorem State.showResponse_pool (r : DbResponse) : (s.showResponse r).pool = s.pool := rfl
@[simp] theorem State.showResponse_jrn (r : DbResponse) : (s.showResponse r).jrn = s.jrn := rfl
@[simp] theorem State.showResponse_twin (r : DbResponse) : (s.showResponse r).twin = s.twin := rfl
@[simp] theorem State.showResponse_fab (r : DbResponse) : (s.showResponse r).fab = s.fab := rfl
@[simp] theorem State.showResponse_islands (r : DbResponse) : (s.showResponse r).islands = s.islands := rfl
@[simp] theorem State.showResponse_stash (r : DbResponse) : (s.showResponse r).stash = s.stash := rfl
@[simp] theorem State.showResponse_scrub (r : DbResponse) : (s.showResponse r).scrub = s.scrub := rfl
@[simp] theorem State.showResponse_tapReset (r : DbResponse) : (s.showResponse r).tapReset = s.tapReset := rfl
@[simp] theorem State.respond_pending (i d : Nat) (e : Bool) : (s.respond i d e).pending = s.pending := rfl
@[simp] theorem State.respond_free (i d : Nat) (e : Bool) : (s.respond i d e).free = s.free := rfl
@[simp] theorem State.respond_straps (i d : Nat) (e : Bool) : (s.respond i d e).straps = s.straps := rfl
@[simp] theorem State.respond_mem (i d : Nat) (e : Bool) : (s.respond i d e).mem = s.mem := rfl
@[simp] theorem State.respond_ctl (i d : Nat) (e : Bool) : (s.respond i d e).ctl = s.ctl := rfl
@[simp] theorem State.respond_dict (i d : Nat) (e : Bool) : (s.respond i d e).dict = s.dict := rfl
@[simp] theorem State.respond_prot (i d : Nat) (e : Bool) : (s.respond i d e).prot = s.prot := rfl
@[simp] theorem State.respond_ctxs (i d : Nat) (e : Bool) : (s.respond i d e).ctxs = s.ctxs := rfl
@[simp] theorem State.respond_ports (i d : Nat) (e : Bool) : (s.respond i d e).ports = s.ports := rfl
@[simp] theorem State.respond_pool (i d : Nat) (e : Bool) : (s.respond i d e).pool = s.pool := rfl
@[simp] theorem State.respond_jrn (i d : Nat) (e : Bool) : (s.respond i d e).jrn = s.jrn := rfl
@[simp] theorem State.respond_twin (i d : Nat) (e : Bool) : (s.respond i d e).twin = s.twin := rfl
@[simp] theorem State.respond_fab (i d : Nat) (e : Bool) : (s.respond i d e).fab = s.fab := rfl
@[simp] theorem State.respond_islands (i d : Nat) (e : Bool) : (s.respond i d e).islands = s.islands := rfl
@[simp] theorem State.respond_stash (i d : Nat) (e : Bool) : (s.respond i d e).stash = s.stash := rfl
@[simp] theorem State.respond_scrub (i d : Nat) (e : Bool) : (s.respond i d e).scrub = s.scrub := rfl
@[simp] theorem State.respond_tapReset (i d : Nat) (e : Bool) : (s.respond i d e).tapReset = s.tapReset := rfl
@[simp] theorem State.respondBell_pending (c i r o : Nat) : (s.respondBell c i r o).pending = s.pending := rfl
@[simp] theorem State.respondBell_free (c i r o : Nat) : (s.respondBell c i r o).free = s.free := rfl
@[simp] theorem State.respondBell_straps (c i r o : Nat) : (s.respondBell c i r o).straps = s.straps := rfl
@[simp] theorem State.respondBell_mem (c i r o : Nat) : (s.respondBell c i r o).mem = s.mem := rfl
@[simp] theorem State.respondBell_ctl (c i r o : Nat) : (s.respondBell c i r o).ctl = s.ctl := rfl
@[simp] theorem State.respondBell_dict (c i r o : Nat) : (s.respondBell c i r o).dict = s.dict := rfl
@[simp] theorem State.respondBell_prot (c i r o : Nat) : (s.respondBell c i r o).prot = s.prot := rfl
@[simp] theorem State.respondBell_ctxs (c i r o : Nat) : (s.respondBell c i r o).ctxs = s.ctxs := rfl
@[simp] theorem State.respondBell_ports (c i r o : Nat) : (s.respondBell c i r o).ports = s.ports := rfl
@[simp] theorem State.respondBell_pool (c i r o : Nat) : (s.respondBell c i r o).pool = s.pool := rfl
@[simp] theorem State.respondBell_jrn (c i r o : Nat) : (s.respondBell c i r o).jrn = s.jrn := rfl
@[simp] theorem State.respondBell_twin (c i r o : Nat) : (s.respondBell c i r o).twin = s.twin := rfl
@[simp] theorem State.respondBell_fab (c i r o : Nat) : (s.respondBell c i r o).fab = s.fab := rfl
@[simp] theorem State.respondBell_islands (c i r o : Nat) : (s.respondBell c i r o).islands = s.islands := rfl
@[simp] theorem State.respondBell_stash (c i r o : Nat) : (s.respondBell c i r o).stash = s.stash := rfl
@[simp] theorem State.respondBell_scrub (c i r o : Nat) : (s.respondBell c i r o).scrub = s.scrub := rfl
@[simp] theorem State.respondBell_tapReset (c i r o : Nat) : (s.respondBell c i r o).tapReset = s.tapReset := rfl
@[simp] theorem State.queueFrame_pending (l : Nat) (f : Frame) : (s.queueFrame l f).pending = s.pending := rfl
@[simp] theorem State.queueFrame_free (l : Nat) (f : Frame) : (s.queueFrame l f).free = s.free := rfl
@[simp] theorem State.queueFrame_straps (l : Nat) (f : Frame) : (s.queueFrame l f).straps = s.straps := rfl
@[simp] theorem State.queueFrame_mem (l : Nat) (f : Frame) : (s.queueFrame l f).mem = s.mem := rfl
@[simp] theorem State.queueFrame_ctl (l : Nat) (f : Frame) : (s.queueFrame l f).ctl = s.ctl := rfl
@[simp] theorem State.queueFrame_dict (l : Nat) (f : Frame) : (s.queueFrame l f).dict = s.dict := rfl
@[simp] theorem State.queueFrame_prot (l : Nat) (f : Frame) : (s.queueFrame l f).prot = s.prot := rfl
@[simp] theorem State.queueFrame_ctxs (l : Nat) (f : Frame) : (s.queueFrame l f).ctxs = s.ctxs := rfl
@[simp] theorem State.queueFrame_sched (l : Nat) (f : Frame) : (s.queueFrame l f).sched = s.sched := rfl
@[simp] theorem State.queueFrame_ports (l : Nat) (f : Frame) : (s.queueFrame l f).ports = s.ports := rfl
@[simp] theorem State.queueFrame_pool (l : Nat) (f : Frame) : (s.queueFrame l f).pool = s.pool := rfl
@[simp] theorem State.queueFrame_jrn (l : Nat) (f : Frame) : (s.queueFrame l f).jrn = s.jrn := rfl
@[simp] theorem State.queueFrame_twin (l : Nat) (f : Frame) : (s.queueFrame l f).twin = s.twin := rfl
@[simp] theorem State.queueFrame_islands (l : Nat) (f : Frame) : (s.queueFrame l f).islands = s.islands := rfl
@[simp] theorem State.queueFrame_stash (l : Nat) (f : Frame) : (s.queueFrame l f).stash = s.stash := rfl
@[simp] theorem State.queueFrame_scrub (l : Nat) (f : Frame) : (s.queueFrame l f).scrub = s.scrub := rfl
@[simp] theorem State.queueFrame_tapReset (l : Nat) (f : Frame) : (s.queueFrame l f).tapReset = s.tapReset := rfl
@[simp] theorem State.withdraw_pending (f : PortReq → Bool) : (s.withdraw f).pending = s.pending := rfl
@[simp] theorem State.withdraw_free (f : PortReq → Bool) : (s.withdraw f).free = s.free := rfl
@[simp] theorem State.withdraw_straps (f : PortReq → Bool) : (s.withdraw f).straps = s.straps := rfl
@[simp] theorem State.withdraw_mem (f : PortReq → Bool) : (s.withdraw f).mem = s.mem := rfl
@[simp] theorem State.withdraw_ctl (f : PortReq → Bool) : (s.withdraw f).ctl = s.ctl := rfl
@[simp] theorem State.withdraw_dict (f : PortReq → Bool) : (s.withdraw f).dict = s.dict := rfl
@[simp] theorem State.withdraw_prot (f : PortReq → Bool) : (s.withdraw f).prot = s.prot := rfl
@[simp] theorem State.withdraw_ctxs (f : PortReq → Bool) : (s.withdraw f).ctxs = s.ctxs := rfl
@[simp] theorem State.withdraw_sched (f : PortReq → Bool) : (s.withdraw f).sched = s.sched := rfl
@[simp] theorem State.withdraw_pool (f : PortReq → Bool) : (s.withdraw f).pool = s.pool := rfl
@[simp] theorem State.withdraw_jrn (f : PortReq → Bool) : (s.withdraw f).jrn = s.jrn := rfl
@[simp] theorem State.withdraw_twin (f : PortReq → Bool) : (s.withdraw f).twin = s.twin := rfl
@[simp] theorem State.withdraw_fab (f : PortReq → Bool) : (s.withdraw f).fab = s.fab := rfl
@[simp] theorem State.withdraw_islands (f : PortReq → Bool) : (s.withdraw f).islands = s.islands := rfl
@[simp] theorem State.withdraw_stash (f : PortReq → Bool) : (s.withdraw f).stash = s.stash := rfl
@[simp] theorem State.withdraw_scrub (f : PortReq → Bool) : (s.withdraw f).scrub = s.scrub := rfl
@[simp] theorem State.withdraw_tapReset (f : PortReq → Bool) : (s.withdraw f).tapReset = s.tapReset := rfl
@[simp] theorem State.enterRing_pending : (s.enterRing).pending = s.pending := rfl
@[simp] theorem State.enterRing_free : (s.enterRing).free = s.free := rfl
@[simp] theorem State.enterRing_straps : (s.enterRing).straps = s.straps := rfl
@[simp] theorem State.enterRing_mem : (s.enterRing).mem = s.mem := rfl
@[simp] theorem State.enterRing_ctl : (s.enterRing).ctl = s.ctl := rfl
@[simp] theorem State.enterRing_dict : (s.enterRing).dict = s.dict := rfl
@[simp] theorem State.enterRing_prot : (s.enterRing).prot = s.prot := rfl
@[simp] theorem State.enterRing_ctxs : (s.enterRing).ctxs = s.ctxs := rfl
@[simp] theorem State.enterRing_sched : (s.enterRing).sched = s.sched := rfl
@[simp] theorem State.enterRing_ports : (s.enterRing).ports = s.ports := rfl
@[simp] theorem State.enterRing_pool : (s.enterRing).pool = s.pool := rfl
@[simp] theorem State.enterRing_twin : (s.enterRing).twin = s.twin := rfl
@[simp] theorem State.enterRing_fab : (s.enterRing).fab = s.fab := rfl
@[simp] theorem State.enterRing_islands : (s.enterRing).islands = s.islands := rfl
@[simp] theorem State.enterRing_stash : (s.enterRing).stash = s.stash := rfl
@[simp] theorem State.enterRing_scrub : (s.enterRing).scrub = s.scrub := rfl
@[simp] theorem State.enterRing_tapReset : (s.enterRing).tapReset = s.tapReset := rfl
@[simp] theorem State.takeAccess_pending (i : Nat) : (s.takeAccess i).pending = s.pending := rfl
@[simp] theorem State.takeAccess_free (i : Nat) : (s.takeAccess i).free = s.free := rfl
@[simp] theorem State.takeAccess_straps (i : Nat) : (s.takeAccess i).straps = s.straps := rfl
@[simp] theorem State.takeAccess_mem (i : Nat) : (s.takeAccess i).mem = s.mem := rfl
@[simp] theorem State.takeAccess_ctl (i : Nat) : (s.takeAccess i).ctl = s.ctl := rfl
@[simp] theorem State.takeAccess_dict (i : Nat) : (s.takeAccess i).dict = s.dict := rfl
@[simp] theorem State.takeAccess_prot (i : Nat) : (s.takeAccess i).prot = s.prot := rfl
@[simp] theorem State.takeAccess_ctxs (i : Nat) : (s.takeAccess i).ctxs = s.ctxs := rfl
@[simp] theorem State.takeAccess_ports (i : Nat) : (s.takeAccess i).ports = s.ports := rfl
@[simp] theorem State.takeAccess_pool (i : Nat) : (s.takeAccess i).pool = s.pool := rfl
@[simp] theorem State.takeAccess_jrn (i : Nat) : (s.takeAccess i).jrn = s.jrn := rfl
@[simp] theorem State.takeAccess_twin (i : Nat) : (s.takeAccess i).twin = s.twin := rfl
@[simp] theorem State.takeAccess_fab (i : Nat) : (s.takeAccess i).fab = s.fab := rfl
@[simp] theorem State.takeAccess_islands (i : Nat) : (s.takeAccess i).islands = s.islands := rfl
@[simp] theorem State.takeAccess_stash (i : Nat) : (s.takeAccess i).stash = s.stash := rfl
@[simp] theorem State.takeAccess_scrub (i : Nat) : (s.takeAccess i).scrub = s.scrub := rfl
@[simp] theorem State.takeAccess_tapReset (i : Nat) : (s.takeAccess i).tapReset = s.tapReset := rfl
@[simp] theorem State.modCtx_pending (c : Nat) (f : Ctx → Ctx) : (s.modCtx c f).pending = s.pending := rfl
@[simp] theorem State.modCtx_free (c : Nat) (f : Ctx → Ctx) : (s.modCtx c f).free = s.free := rfl
@[simp] theorem State.modCtx_straps (c : Nat) (f : Ctx → Ctx) : (s.modCtx c f).straps = s.straps := rfl
@[simp] theorem State.modCtx_mem (c : Nat) (f : Ctx → Ctx) : (s.modCtx c f).mem = s.mem := rfl
@[simp] theorem State.modCtx_ctl (c : Nat) (f : Ctx → Ctx) : (s.modCtx c f).ctl = s.ctl := rfl
@[simp] theorem State.modCtx_dict (c : Nat) (f : Ctx → Ctx) : (s.modCtx c f).dict = s.dict := rfl
@[simp] theorem State.modCtx_prot (c : Nat) (f : Ctx → Ctx) : (s.modCtx c f).prot = s.prot := rfl
@[simp] theorem State.modCtx_sched (c : Nat) (f : Ctx → Ctx) : (s.modCtx c f).sched = s.sched := rfl
@[simp] theorem State.modCtx_ports (c : Nat) (f : Ctx → Ctx) : (s.modCtx c f).ports = s.ports := rfl
@[simp] theorem State.modCtx_pool (c : Nat) (f : Ctx → Ctx) : (s.modCtx c f).pool = s.pool := rfl
@[simp] theorem State.modCtx_jrn (c : Nat) (f : Ctx → Ctx) : (s.modCtx c f).jrn = s.jrn := rfl
@[simp] theorem State.modCtx_twin (c : Nat) (f : Ctx → Ctx) : (s.modCtx c f).twin = s.twin := rfl
@[simp] theorem State.modCtx_fab (c : Nat) (f : Ctx → Ctx) : (s.modCtx c f).fab = s.fab := rfl
@[simp] theorem State.modCtx_islands (c : Nat) (f : Ctx → Ctx) : (s.modCtx c f).islands = s.islands := rfl
@[simp] theorem State.modCtx_stash (c : Nat) (f : Ctx → Ctx) : (s.modCtx c f).stash = s.stash := rfl
@[simp] theorem State.modCtx_scrub (c : Nat) (f : Ctx → Ctx) : (s.modCtx c f).scrub = s.scrub := rfl
@[simp] theorem State.modCtx_tapReset (c : Nat) (f : Ctx → Ctx) : (s.modCtx c f).tapReset = s.tapReset := rfl
@[simp] theorem State.modItem_pending (c : Nat) (f : Item → Item) : (s.modItem c f).pending = s.pending := rfl
@[simp] theorem State.modItem_free (c : Nat) (f : Item → Item) : (s.modItem c f).free = s.free := rfl
@[simp] theorem State.modItem_straps (c : Nat) (f : Item → Item) : (s.modItem c f).straps = s.straps := rfl
@[simp] theorem State.modItem_mem (c : Nat) (f : Item → Item) : (s.modItem c f).mem = s.mem := rfl
@[simp] theorem State.modItem_ctl (c : Nat) (f : Item → Item) : (s.modItem c f).ctl = s.ctl := rfl
@[simp] theorem State.modItem_dict (c : Nat) (f : Item → Item) : (s.modItem c f).dict = s.dict := rfl
@[simp] theorem State.modItem_prot (c : Nat) (f : Item → Item) : (s.modItem c f).prot = s.prot := rfl
@[simp] theorem State.modItem_sched (c : Nat) (f : Item → Item) : (s.modItem c f).sched = s.sched := rfl
@[simp] theorem State.modItem_ports (c : Nat) (f : Item → Item) : (s.modItem c f).ports = s.ports := rfl
@[simp] theorem State.modItem_pool (c : Nat) (f : Item → Item) : (s.modItem c f).pool = s.pool := rfl
@[simp] theorem State.modItem_jrn (c : Nat) (f : Item → Item) : (s.modItem c f).jrn = s.jrn := rfl
@[simp] theorem State.modItem_twin (c : Nat) (f : Item → Item) : (s.modItem c f).twin = s.twin := rfl
@[simp] theorem State.modItem_fab (c : Nat) (f : Item → Item) : (s.modItem c f).fab = s.fab := rfl
@[simp] theorem State.modItem_islands (c : Nat) (f : Item → Item) : (s.modItem c f).islands = s.islands := rfl
@[simp] theorem State.modItem_stash (c : Nat) (f : Item → Item) : (s.modItem c f).stash = s.stash := rfl
@[simp] theorem State.modItem_scrub (c : Nat) (f : Item → Item) : (s.modItem c f).scrub = s.scrub := rfl
@[simp] theorem State.modItem_tapReset (c : Nat) (f : Item → Item) : (s.modItem c f).tapReset = s.tapReset := rfl
@[simp] theorem State.fail_pending (c : Nat) (f : FaultRec) : (s.fail c f).pending = s.pending := rfl
@[simp] theorem State.fail_free (c : Nat) (f : FaultRec) : (s.fail c f).free = s.free := rfl
@[simp] theorem State.fail_straps (c : Nat) (f : FaultRec) : (s.fail c f).straps = s.straps := rfl
@[simp] theorem State.fail_mem (c : Nat) (f : FaultRec) : (s.fail c f).mem = s.mem := rfl
@[simp] theorem State.fail_ctl (c : Nat) (f : FaultRec) : (s.fail c f).ctl = s.ctl := rfl
@[simp] theorem State.fail_dict (c : Nat) (f : FaultRec) : (s.fail c f).dict = s.dict := rfl
@[simp] theorem State.fail_prot (c : Nat) (f : FaultRec) : (s.fail c f).prot = s.prot := rfl
@[simp] theorem State.fail_sched (c : Nat) (f : FaultRec) : (s.fail c f).sched = s.sched := rfl
@[simp] theorem State.fail_ports (c : Nat) (f : FaultRec) : (s.fail c f).ports = s.ports := rfl
@[simp] theorem State.fail_pool (c : Nat) (f : FaultRec) : (s.fail c f).pool = s.pool := rfl
@[simp] theorem State.fail_jrn (c : Nat) (f : FaultRec) : (s.fail c f).jrn = s.jrn := rfl
@[simp] theorem State.fail_twin (c : Nat) (f : FaultRec) : (s.fail c f).twin = s.twin := rfl
@[simp] theorem State.fail_fab (c : Nat) (f : FaultRec) : (s.fail c f).fab = s.fab := rfl
@[simp] theorem State.fail_islands (c : Nat) (f : FaultRec) : (s.fail c f).islands = s.islands := rfl
@[simp] theorem State.fail_stash (c : Nat) (f : FaultRec) : (s.fail c f).stash = s.stash := rfl
@[simp] theorem State.fail_scrub (c : Nat) (f : FaultRec) : (s.fail c f).scrub = s.scrub := rfl
@[simp] theorem State.fail_tapReset (c : Nat) (f : FaultRec) : (s.fail c f).tapReset = s.tapReset := rfl
@[simp] theorem State.stall_pending (c : Nat) (w : WaitOn) : (s.stall c w).pending = s.pending := rfl
@[simp] theorem State.stall_free (c : Nat) (w : WaitOn) : (s.stall c w).free = s.free := rfl
@[simp] theorem State.stall_straps (c : Nat) (w : WaitOn) : (s.stall c w).straps = s.straps := rfl
@[simp] theorem State.stall_mem (c : Nat) (w : WaitOn) : (s.stall c w).mem = s.mem := rfl
@[simp] theorem State.stall_ctl (c : Nat) (w : WaitOn) : (s.stall c w).ctl = s.ctl := rfl
@[simp] theorem State.stall_dict (c : Nat) (w : WaitOn) : (s.stall c w).dict = s.dict := rfl
@[simp] theorem State.stall_prot (c : Nat) (w : WaitOn) : (s.stall c w).prot = s.prot := rfl
@[simp] theorem State.stall_sched (c : Nat) (w : WaitOn) : (s.stall c w).sched = s.sched := rfl
@[simp] theorem State.stall_ports (c : Nat) (w : WaitOn) : (s.stall c w).ports = s.ports := rfl
@[simp] theorem State.stall_pool (c : Nat) (w : WaitOn) : (s.stall c w).pool = s.pool := rfl
@[simp] theorem State.stall_jrn (c : Nat) (w : WaitOn) : (s.stall c w).jrn = s.jrn := rfl
@[simp] theorem State.stall_twin (c : Nat) (w : WaitOn) : (s.stall c w).twin = s.twin := rfl
@[simp] theorem State.stall_fab (c : Nat) (w : WaitOn) : (s.stall c w).fab = s.fab := rfl
@[simp] theorem State.stall_islands (c : Nat) (w : WaitOn) : (s.stall c w).islands = s.islands := rfl
@[simp] theorem State.stall_stash (c : Nat) (w : WaitOn) : (s.stall c w).stash = s.stash := rfl
@[simp] theorem State.stall_scrub (c : Nat) (w : WaitOn) : (s.stall c w).scrub = s.scrub := rfl
@[simp] theorem State.stall_tapReset (c : Nat) (w : WaitOn) : (s.stall c w).tapReset = s.tapReset := rfl
@[simp] theorem State.unstall_pending (c : Nat) : (s.unstall c).pending = s.pending := rfl
@[simp] theorem State.unstall_free (c : Nat) : (s.unstall c).free = s.free := rfl
@[simp] theorem State.unstall_straps (c : Nat) : (s.unstall c).straps = s.straps := rfl
@[simp] theorem State.unstall_mem (c : Nat) : (s.unstall c).mem = s.mem := rfl
@[simp] theorem State.unstall_ctl (c : Nat) : (s.unstall c).ctl = s.ctl := rfl
@[simp] theorem State.unstall_dict (c : Nat) : (s.unstall c).dict = s.dict := rfl
@[simp] theorem State.unstall_prot (c : Nat) : (s.unstall c).prot = s.prot := rfl
@[simp] theorem State.unstall_sched (c : Nat) : (s.unstall c).sched = s.sched := rfl
@[simp] theorem State.unstall_ports (c : Nat) : (s.unstall c).ports = s.ports := rfl
@[simp] theorem State.unstall_pool (c : Nat) : (s.unstall c).pool = s.pool := rfl
@[simp] theorem State.unstall_jrn (c : Nat) : (s.unstall c).jrn = s.jrn := rfl
@[simp] theorem State.unstall_twin (c : Nat) : (s.unstall c).twin = s.twin := rfl
@[simp] theorem State.unstall_fab (c : Nat) : (s.unstall c).fab = s.fab := rfl
@[simp] theorem State.unstall_islands (c : Nat) : (s.unstall c).islands = s.islands := rfl
@[simp] theorem State.unstall_stash (c : Nat) : (s.unstall c).stash = s.stash := rfl
@[simp] theorem State.unstall_scrub (c : Nat) : (s.unstall c).scrub = s.scrub := rfl
@[simp] theorem State.unstall_tapReset (c : Nat) : (s.unstall c).tapReset = s.tapReset := rfl

/-! ## Updates that branch: the fields they write, and the others by field -/

theorem State.postEvent_eq (i w : Nat) : s.postEvent i w =
    { s with ctl := (s.postEvent i w).ctl } := by
  unfold State.postEvent; split <;> rfl
@[simp] theorem State.postEvent_pending (i w : Nat) : (s.postEvent i w).pending = s.pending :=
  (congrArg State.pending (s.postEvent_eq i w) :)
@[simp] theorem State.postEvent_free (i w : Nat) : (s.postEvent i w).free = s.free :=
  (congrArg State.free (s.postEvent_eq i w) :)
@[simp] theorem State.postEvent_straps (i w : Nat) : (s.postEvent i w).straps = s.straps :=
  (congrArg State.straps (s.postEvent_eq i w) :)
@[simp] theorem State.postEvent_mem (i w : Nat) : (s.postEvent i w).mem = s.mem :=
  (congrArg State.mem (s.postEvent_eq i w) :)
@[simp] theorem State.postEvent_dict (i w : Nat) : (s.postEvent i w).dict = s.dict :=
  (congrArg State.dict (s.postEvent_eq i w) :)
@[simp] theorem State.postEvent_prot (i w : Nat) : (s.postEvent i w).prot = s.prot :=
  (congrArg State.prot (s.postEvent_eq i w) :)
@[simp] theorem State.postEvent_ctxs (i w : Nat) : (s.postEvent i w).ctxs = s.ctxs :=
  (congrArg State.ctxs (s.postEvent_eq i w) :)
@[simp] theorem State.postEvent_sched (i w : Nat) : (s.postEvent i w).sched = s.sched :=
  (congrArg State.sched (s.postEvent_eq i w) :)
@[simp] theorem State.postEvent_ports (i w : Nat) : (s.postEvent i w).ports = s.ports :=
  (congrArg State.ports (s.postEvent_eq i w) :)
@[simp] theorem State.postEvent_pool (i w : Nat) : (s.postEvent i w).pool = s.pool :=
  (congrArg State.pool (s.postEvent_eq i w) :)
@[simp] theorem State.postEvent_jrn (i w : Nat) : (s.postEvent i w).jrn = s.jrn :=
  (congrArg State.jrn (s.postEvent_eq i w) :)
@[simp] theorem State.postEvent_twin (i w : Nat) : (s.postEvent i w).twin = s.twin :=
  (congrArg State.twin (s.postEvent_eq i w) :)
@[simp] theorem State.postEvent_fab (i w : Nat) : (s.postEvent i w).fab = s.fab :=
  (congrArg State.fab (s.postEvent_eq i w) :)
@[simp] theorem State.postEvent_islands (i w : Nat) : (s.postEvent i w).islands = s.islands :=
  (congrArg State.islands (s.postEvent_eq i w) :)
@[simp] theorem State.postEvent_stash (i w : Nat) : (s.postEvent i w).stash = s.stash :=
  (congrArg State.stash (s.postEvent_eq i w) :)
@[simp] theorem State.postEvent_scrub (i w : Nat) : (s.postEvent i w).scrub = s.scrub :=
  (congrArg State.scrub (s.postEvent_eq i w) :)
@[simp] theorem State.postEvent_tapReset (i w : Nat) : (s.postEvent i w).tapReset = s.tapReset :=
  (congrArg State.tapReset (s.postEvent_eq i w) :)
theorem State.raise_eq (e : Event) : s.raise e =
    { s with ctl := (s.raise e).ctl } := by
  unfold State.raise; dsimp only; split
  · rw [State.postEvent_eq]
  · rfl
@[simp] theorem State.raise_pending (e : Event) : (s.raise e).pending = s.pending :=
  (congrArg State.pending (s.raise_eq e) :)
@[simp] theorem State.raise_free (e : Event) : (s.raise e).free = s.free :=
  (congrArg State.free (s.raise_eq e) :)
@[simp] theorem State.raise_straps (e : Event) : (s.raise e).straps = s.straps :=
  (congrArg State.straps (s.raise_eq e) :)
@[simp] theorem State.raise_mem (e : Event) : (s.raise e).mem = s.mem :=
  (congrArg State.mem (s.raise_eq e) :)
@[simp] theorem State.raise_dict (e : Event) : (s.raise e).dict = s.dict :=
  (congrArg State.dict (s.raise_eq e) :)
@[simp] theorem State.raise_prot (e : Event) : (s.raise e).prot = s.prot :=
  (congrArg State.prot (s.raise_eq e) :)
@[simp] theorem State.raise_ctxs (e : Event) : (s.raise e).ctxs = s.ctxs :=
  (congrArg State.ctxs (s.raise_eq e) :)
@[simp] theorem State.raise_sched (e : Event) : (s.raise e).sched = s.sched :=
  (congrArg State.sched (s.raise_eq e) :)
@[simp] theorem State.raise_ports (e : Event) : (s.raise e).ports = s.ports :=
  (congrArg State.ports (s.raise_eq e) :)
@[simp] theorem State.raise_pool (e : Event) : (s.raise e).pool = s.pool :=
  (congrArg State.pool (s.raise_eq e) :)
@[simp] theorem State.raise_jrn (e : Event) : (s.raise e).jrn = s.jrn :=
  (congrArg State.jrn (s.raise_eq e) :)
@[simp] theorem State.raise_twin (e : Event) : (s.raise e).twin = s.twin :=
  (congrArg State.twin (s.raise_eq e) :)
@[simp] theorem State.raise_fab (e : Event) : (s.raise e).fab = s.fab :=
  (congrArg State.fab (s.raise_eq e) :)
@[simp] theorem State.raise_islands (e : Event) : (s.raise e).islands = s.islands :=
  (congrArg State.islands (s.raise_eq e) :)
@[simp] theorem State.raise_stash (e : Event) : (s.raise e).stash = s.stash :=
  (congrArg State.stash (s.raise_eq e) :)
@[simp] theorem State.raise_scrub (e : Event) : (s.raise e).scrub = s.scrub :=
  (congrArg State.scrub (s.raise_eq e) :)
@[simp] theorem State.raise_tapReset (e : Event) : (s.raise e).tapReset = s.tapReset :=
  (congrArg State.tapReset (s.raise_eq e) :)
theorem State.enterMode_eq (m : Mode) (n : Nat) : s.enterMode m n =
    { s with ctl := (s.enterMode m n).ctl, prot := (s.enterMode m n).prot } := by
  unfold State.enterMode; rw [State.raise_eq]
@[simp] theorem State.enterMode_pending (m : Mode) (n : Nat) : (s.enterMode m n).pending = s.pending :=
  (congrArg State.pending (s.enterMode_eq m n) :)
@[simp] theorem State.enterMode_free (m : Mode) (n : Nat) : (s.enterMode m n).free = s.free :=
  (congrArg State.free (s.enterMode_eq m n) :)
@[simp] theorem State.enterMode_straps (m : Mode) (n : Nat) : (s.enterMode m n).straps = s.straps :=
  (congrArg State.straps (s.enterMode_eq m n) :)
@[simp] theorem State.enterMode_mem (m : Mode) (n : Nat) : (s.enterMode m n).mem = s.mem :=
  (congrArg State.mem (s.enterMode_eq m n) :)
@[simp] theorem State.enterMode_dict (m : Mode) (n : Nat) : (s.enterMode m n).dict = s.dict :=
  (congrArg State.dict (s.enterMode_eq m n) :)
@[simp] theorem State.enterMode_ctxs (m : Mode) (n : Nat) : (s.enterMode m n).ctxs = s.ctxs :=
  (congrArg State.ctxs (s.enterMode_eq m n) :)
@[simp] theorem State.enterMode_sched (m : Mode) (n : Nat) : (s.enterMode m n).sched = s.sched :=
  (congrArg State.sched (s.enterMode_eq m n) :)
@[simp] theorem State.enterMode_ports (m : Mode) (n : Nat) : (s.enterMode m n).ports = s.ports :=
  (congrArg State.ports (s.enterMode_eq m n) :)
@[simp] theorem State.enterMode_pool (m : Mode) (n : Nat) : (s.enterMode m n).pool = s.pool :=
  (congrArg State.pool (s.enterMode_eq m n) :)
@[simp] theorem State.enterMode_jrn (m : Mode) (n : Nat) : (s.enterMode m n).jrn = s.jrn :=
  (congrArg State.jrn (s.enterMode_eq m n) :)
@[simp] theorem State.enterMode_twin (m : Mode) (n : Nat) : (s.enterMode m n).twin = s.twin :=
  (congrArg State.twin (s.enterMode_eq m n) :)
@[simp] theorem State.enterMode_fab (m : Mode) (n : Nat) : (s.enterMode m n).fab = s.fab :=
  (congrArg State.fab (s.enterMode_eq m n) :)
@[simp] theorem State.enterMode_islands (m : Mode) (n : Nat) : (s.enterMode m n).islands = s.islands :=
  (congrArg State.islands (s.enterMode_eq m n) :)
@[simp] theorem State.enterMode_stash (m : Mode) (n : Nat) : (s.enterMode m n).stash = s.stash :=
  (congrArg State.stash (s.enterMode_eq m n) :)
@[simp] theorem State.enterMode_scrub (m : Mode) (n : Nat) : (s.enterMode m n).scrub = s.scrub :=
  (congrArg State.scrub (s.enterMode_eq m n) :)
@[simp] theorem State.enterMode_tapReset (m : Mode) (n : Nat) : (s.enterMode m n).tapReset = s.tapReset :=
  (congrArg State.tapReset (s.enterMode_eq m n) :)
theorem State.raiseIf_eq (b : Bool) (e : Event) : s.raiseIf b e =
    { s with ctl := (s.raiseIf b e).ctl } := by
  cases b
  · rfl
  · exact s.raise_eq e
@[simp] theorem State.raiseIf_pending (b : Bool) (e : Event) : (s.raiseIf b e).pending = s.pending :=
  (congrArg State.pending (s.raiseIf_eq b e) :)
@[simp] theorem State.raiseIf_free (b : Bool) (e : Event) : (s.raiseIf b e).free = s.free :=
  (congrArg State.free (s.raiseIf_eq b e) :)
@[simp] theorem State.raiseIf_straps (b : Bool) (e : Event) : (s.raiseIf b e).straps = s.straps :=
  (congrArg State.straps (s.raiseIf_eq b e) :)
@[simp] theorem State.raiseIf_mem (b : Bool) (e : Event) : (s.raiseIf b e).mem = s.mem :=
  (congrArg State.mem (s.raiseIf_eq b e) :)
@[simp] theorem State.raiseIf_dict (b : Bool) (e : Event) : (s.raiseIf b e).dict = s.dict :=
  (congrArg State.dict (s.raiseIf_eq b e) :)
@[simp] theorem State.raiseIf_prot (b : Bool) (e : Event) : (s.raiseIf b e).prot = s.prot :=
  (congrArg State.prot (s.raiseIf_eq b e) :)
@[simp] theorem State.raiseIf_ctxs (b : Bool) (e : Event) : (s.raiseIf b e).ctxs = s.ctxs :=
  (congrArg State.ctxs (s.raiseIf_eq b e) :)
@[simp] theorem State.raiseIf_sched (b : Bool) (e : Event) : (s.raiseIf b e).sched = s.sched :=
  (congrArg State.sched (s.raiseIf_eq b e) :)
@[simp] theorem State.raiseIf_ports (b : Bool) (e : Event) : (s.raiseIf b e).ports = s.ports :=
  (congrArg State.ports (s.raiseIf_eq b e) :)
@[simp] theorem State.raiseIf_pool (b : Bool) (e : Event) : (s.raiseIf b e).pool = s.pool :=
  (congrArg State.pool (s.raiseIf_eq b e) :)
@[simp] theorem State.raiseIf_jrn (b : Bool) (e : Event) : (s.raiseIf b e).jrn = s.jrn :=
  (congrArg State.jrn (s.raiseIf_eq b e) :)
@[simp] theorem State.raiseIf_twin (b : Bool) (e : Event) : (s.raiseIf b e).twin = s.twin :=
  (congrArg State.twin (s.raiseIf_eq b e) :)
@[simp] theorem State.raiseIf_fab (b : Bool) (e : Event) : (s.raiseIf b e).fab = s.fab :=
  (congrArg State.fab (s.raiseIf_eq b e) :)
@[simp] theorem State.raiseIf_islands (b : Bool) (e : Event) : (s.raiseIf b e).islands = s.islands :=
  (congrArg State.islands (s.raiseIf_eq b e) :)
@[simp] theorem State.raiseIf_stash (b : Bool) (e : Event) : (s.raiseIf b e).stash = s.stash :=
  (congrArg State.stash (s.raiseIf_eq b e) :)
@[simp] theorem State.raiseIf_scrub (b : Bool) (e : Event) : (s.raiseIf b e).scrub = s.scrub :=
  (congrArg State.scrub (s.raiseIf_eq b e) :)
@[simp] theorem State.raiseIf_tapReset (b : Bool) (e : Event) : (s.raiseIf b e).tapReset = s.tapReset :=
  (congrArg State.tapReset (s.raiseIf_eq b e) :)
theorem State.giveTiles_eq (n : Nat) (r : PortReq) (a o : Nat) (l : List Byte) : s.giveTiles n r a o l =
    { s with stash := (s.giveTiles n r a o l).stash } := by
  have key (l' : List (Nat × Nat)) (f : State → Nat × Nat → StashPort) (t : State) (h : t = { s with stash := t.stash }) :
      l'.foldl (fun v c => v.setStash n (f v c)) t = { s with stash := (l'.foldl (fun v c => v.setStash n (f v c)) t).stash } := by
    induction l' generalizing t with
    | nil => exact h
    | cons b r ih => exact ih _ (by rw [h]; rfl)
  exact key _ _ _ (by unfold State.wakeStash; dsimp only; split <;> rfl)
@[simp] theorem State.giveTiles_pending (n : Nat) (r : PortReq) (a o : Nat) (l : List Byte) : (s.giveTiles n r a o l).pending = s.pending :=
  (congrArg State.pending (s.giveTiles_eq n r a o l) :)
@[simp] theorem State.giveTiles_free (n : Nat) (r : PortReq) (a o : Nat) (l : List Byte) : (s.giveTiles n r a o l).free = s.free :=
  (congrArg State.free (s.giveTiles_eq n r a o l) :)
@[simp] theorem State.giveTiles_straps (n : Nat) (r : PortReq) (a o : Nat) (l : List Byte) : (s.giveTiles n r a o l).straps = s.straps :=
  (congrArg State.straps (s.giveTiles_eq n r a o l) :)
@[simp] theorem State.giveTiles_mem (n : Nat) (r : PortReq) (a o : Nat) (l : List Byte) : (s.giveTiles n r a o l).mem = s.mem :=
  (congrArg State.mem (s.giveTiles_eq n r a o l) :)
@[simp] theorem State.giveTiles_ctl (n : Nat) (r : PortReq) (a o : Nat) (l : List Byte) : (s.giveTiles n r a o l).ctl = s.ctl :=
  (congrArg State.ctl (s.giveTiles_eq n r a o l) :)
@[simp] theorem State.giveTiles_dict (n : Nat) (r : PortReq) (a o : Nat) (l : List Byte) : (s.giveTiles n r a o l).dict = s.dict :=
  (congrArg State.dict (s.giveTiles_eq n r a o l) :)
@[simp] theorem State.giveTiles_prot (n : Nat) (r : PortReq) (a o : Nat) (l : List Byte) : (s.giveTiles n r a o l).prot = s.prot :=
  (congrArg State.prot (s.giveTiles_eq n r a o l) :)
@[simp] theorem State.giveTiles_ctxs (n : Nat) (r : PortReq) (a o : Nat) (l : List Byte) : (s.giveTiles n r a o l).ctxs = s.ctxs :=
  (congrArg State.ctxs (s.giveTiles_eq n r a o l) :)
@[simp] theorem State.giveTiles_sched (n : Nat) (r : PortReq) (a o : Nat) (l : List Byte) : (s.giveTiles n r a o l).sched = s.sched :=
  (congrArg State.sched (s.giveTiles_eq n r a o l) :)
@[simp] theorem State.giveTiles_ports (n : Nat) (r : PortReq) (a o : Nat) (l : List Byte) : (s.giveTiles n r a o l).ports = s.ports :=
  (congrArg State.ports (s.giveTiles_eq n r a o l) :)
@[simp] theorem State.giveTiles_pool (n : Nat) (r : PortReq) (a o : Nat) (l : List Byte) : (s.giveTiles n r a o l).pool = s.pool :=
  (congrArg State.pool (s.giveTiles_eq n r a o l) :)
@[simp] theorem State.giveTiles_jrn (n : Nat) (r : PortReq) (a o : Nat) (l : List Byte) : (s.giveTiles n r a o l).jrn = s.jrn :=
  (congrArg State.jrn (s.giveTiles_eq n r a o l) :)
@[simp] theorem State.giveTiles_twin (n : Nat) (r : PortReq) (a o : Nat) (l : List Byte) : (s.giveTiles n r a o l).twin = s.twin :=
  (congrArg State.twin (s.giveTiles_eq n r a o l) :)
@[simp] theorem State.giveTiles_fab (n : Nat) (r : PortReq) (a o : Nat) (l : List Byte) : (s.giveTiles n r a o l).fab = s.fab :=
  (congrArg State.fab (s.giveTiles_eq n r a o l) :)
@[simp] theorem State.giveTiles_islands (n : Nat) (r : PortReq) (a o : Nat) (l : List Byte) : (s.giveTiles n r a o l).islands = s.islands :=
  (congrArg State.islands (s.giveTiles_eq n r a o l) :)
@[simp] theorem State.giveTiles_scrub (n : Nat) (r : PortReq) (a o : Nat) (l : List Byte) : (s.giveTiles n r a o l).scrub = s.scrub :=
  (congrArg State.scrub (s.giveTiles_eq n r a o l) :)
@[simp] theorem State.giveTiles_tapReset (n : Nat) (r : PortReq) (a o : Nat) (l : List Byte) : (s.giveTiles n r a o l).tapReset = s.tapReset :=
  (congrArg State.tapReset (s.giveTiles_eq n r a o l) :)
theorem State.countFallbacks_eq (l : List Nat) : s.countFallbacks l =
    { s with stash := (s.countFallbacks l).stash } := by
  have key (l' : List Nat) (t : State) (h : t = { s with stash := t.stash }) :
      l'.foldl (fun t n => t.setStash n { t.stashPort n with fallbacks := satAdd u32Max (t.stashPort n).fallbacks 1 }) t =
        { s with stash := (l'.foldl (fun t n => t.setStash n { t.stashPort n with fallbacks := satAdd u32Max (t.stashPort n).fallbacks 1 })
          t).stash } := by
    induction l' generalizing t with
    | nil => exact h
    | cons b r ih => exact ih _ (by rw [h]; rfl)
  exact key _ _ rfl
@[simp] theorem State.countFallbacks_pending (l : List Nat) : (s.countFallbacks l).pending = s.pending :=
  (congrArg State.pending (s.countFallbacks_eq l) :)
@[simp] theorem State.countFallbacks_free (l : List Nat) : (s.countFallbacks l).free = s.free :=
  (congrArg State.free (s.countFallbacks_eq l) :)
@[simp] theorem State.countFallbacks_straps (l : List Nat) : (s.countFallbacks l).straps = s.straps :=
  (congrArg State.straps (s.countFallbacks_eq l) :)
@[simp] theorem State.countFallbacks_mem (l : List Nat) : (s.countFallbacks l).mem = s.mem :=
  (congrArg State.mem (s.countFallbacks_eq l) :)
@[simp] theorem State.countFallbacks_ctl (l : List Nat) : (s.countFallbacks l).ctl = s.ctl :=
  (congrArg State.ctl (s.countFallbacks_eq l) :)
@[simp] theorem State.countFallbacks_dict (l : List Nat) : (s.countFallbacks l).dict = s.dict :=
  (congrArg State.dict (s.countFallbacks_eq l) :)
@[simp] theorem State.countFallbacks_prot (l : List Nat) : (s.countFallbacks l).prot = s.prot :=
  (congrArg State.prot (s.countFallbacks_eq l) :)
@[simp] theorem State.countFallbacks_ctxs (l : List Nat) : (s.countFallbacks l).ctxs = s.ctxs :=
  (congrArg State.ctxs (s.countFallbacks_eq l) :)
@[simp] theorem State.countFallbacks_sched (l : List Nat) : (s.countFallbacks l).sched = s.sched :=
  (congrArg State.sched (s.countFallbacks_eq l) :)
@[simp] theorem State.countFallbacks_ports (l : List Nat) : (s.countFallbacks l).ports = s.ports :=
  (congrArg State.ports (s.countFallbacks_eq l) :)
@[simp] theorem State.countFallbacks_pool (l : List Nat) : (s.countFallbacks l).pool = s.pool :=
  (congrArg State.pool (s.countFallbacks_eq l) :)
@[simp] theorem State.countFallbacks_jrn (l : List Nat) : (s.countFallbacks l).jrn = s.jrn :=
  (congrArg State.jrn (s.countFallbacks_eq l) :)
@[simp] theorem State.countFallbacks_twin (l : List Nat) : (s.countFallbacks l).twin = s.twin :=
  (congrArg State.twin (s.countFallbacks_eq l) :)
@[simp] theorem State.countFallbacks_fab (l : List Nat) : (s.countFallbacks l).fab = s.fab :=
  (congrArg State.fab (s.countFallbacks_eq l) :)
@[simp] theorem State.countFallbacks_islands (l : List Nat) : (s.countFallbacks l).islands = s.islands :=
  (congrArg State.islands (s.countFallbacks_eq l) :)
@[simp] theorem State.countFallbacks_scrub (l : List Nat) : (s.countFallbacks l).scrub = s.scrub :=
  (congrArg State.scrub (s.countFallbacks_eq l) :)
@[simp] theorem State.countFallbacks_tapReset (l : List Nat) : (s.countFallbacks l).tapReset = s.tapReset :=
  (congrArg State.tapReset (s.countFallbacks_eq l) :)
theorem State.presentAt_eq (p : Nat) (r : PortReq) (a : Nat) (l : List Byte) : s.presentAt p r a l =
    { s with ports := (s.presentAt p r a l).ports, stash := (s.presentAt p r a l).stash } := by
  have key (t : State) (ht : t = { s with stash := t.stash }) (p : Nat) (w : Bool) (r : PortReq) :
      t.present p w r = { s with ports := (t.present p w r).ports, stash := (t.present p w r).stash } := by
    obtain ⟨x, hx⟩ : ∃ x, t = { s with stash := x } := ⟨_, ht⟩
    subst hx; rfl
  unfold State.presentAt; split
  · rw [State.giveTiles_eq]
  · exact key _ (s.countFallbacks_eq _) _ _ _
@[simp] theorem State.presentAt_pending (p : Nat) (r : PortReq) (a : Nat) (l : List Byte) : (s.presentAt p r a l).pending = s.pending :=
  (congrArg State.pending (s.presentAt_eq p r a l) :)
@[simp] theorem State.presentAt_free (p : Nat) (r : PortReq) (a : Nat) (l : List Byte) : (s.presentAt p r a l).free = s.free :=
  (congrArg State.free (s.presentAt_eq p r a l) :)
@[simp] theorem State.presentAt_straps (p : Nat) (r : PortReq) (a : Nat) (l : List Byte) : (s.presentAt p r a l).straps = s.straps :=
  (congrArg State.straps (s.presentAt_eq p r a l) :)
@[simp] theorem State.presentAt_mem (p : Nat) (r : PortReq) (a : Nat) (l : List Byte) : (s.presentAt p r a l).mem = s.mem :=
  (congrArg State.mem (s.presentAt_eq p r a l) :)
@[simp] theorem State.presentAt_ctl (p : Nat) (r : PortReq) (a : Nat) (l : List Byte) : (s.presentAt p r a l).ctl = s.ctl :=
  (congrArg State.ctl (s.presentAt_eq p r a l) :)
@[simp] theorem State.presentAt_dict (p : Nat) (r : PortReq) (a : Nat) (l : List Byte) : (s.presentAt p r a l).dict = s.dict :=
  (congrArg State.dict (s.presentAt_eq p r a l) :)
@[simp] theorem State.presentAt_prot (p : Nat) (r : PortReq) (a : Nat) (l : List Byte) : (s.presentAt p r a l).prot = s.prot :=
  (congrArg State.prot (s.presentAt_eq p r a l) :)
@[simp] theorem State.presentAt_ctxs (p : Nat) (r : PortReq) (a : Nat) (l : List Byte) : (s.presentAt p r a l).ctxs = s.ctxs :=
  (congrArg State.ctxs (s.presentAt_eq p r a l) :)
@[simp] theorem State.presentAt_sched (p : Nat) (r : PortReq) (a : Nat) (l : List Byte) : (s.presentAt p r a l).sched = s.sched :=
  (congrArg State.sched (s.presentAt_eq p r a l) :)
@[simp] theorem State.presentAt_pool (p : Nat) (r : PortReq) (a : Nat) (l : List Byte) : (s.presentAt p r a l).pool = s.pool :=
  (congrArg State.pool (s.presentAt_eq p r a l) :)
@[simp] theorem State.presentAt_jrn (p : Nat) (r : PortReq) (a : Nat) (l : List Byte) : (s.presentAt p r a l).jrn = s.jrn :=
  (congrArg State.jrn (s.presentAt_eq p r a l) :)
@[simp] theorem State.presentAt_twin (p : Nat) (r : PortReq) (a : Nat) (l : List Byte) : (s.presentAt p r a l).twin = s.twin :=
  (congrArg State.twin (s.presentAt_eq p r a l) :)
@[simp] theorem State.presentAt_fab (p : Nat) (r : PortReq) (a : Nat) (l : List Byte) : (s.presentAt p r a l).fab = s.fab :=
  (congrArg State.fab (s.presentAt_eq p r a l) :)
@[simp] theorem State.presentAt_islands (p : Nat) (r : PortReq) (a : Nat) (l : List Byte) : (s.presentAt p r a l).islands = s.islands :=
  (congrArg State.islands (s.presentAt_eq p r a l) :)
@[simp] theorem State.presentAt_scrub (p : Nat) (r : PortReq) (a : Nat) (l : List Byte) : (s.presentAt p r a l).scrub = s.scrub :=
  (congrArg State.scrub (s.presentAt_eq p r a l) :)
@[simp] theorem State.presentAt_tapReset (p : Nat) (r : PortReq) (a : Nat) (l : List Byte) : (s.presentAt p r a l).tapReset = s.tapReset :=
  (congrArg State.tapReset (s.presentAt_eq p r a l) :)
theorem State.presentBeat_eq (r : PortReq) (a : Nat) (l : List Byte) : s.presentBeat r a l =
    { s with ports := (s.presentBeat r a l).ports, stash := (s.presentBeat r a l).stash } := by
  unfold State.presentBeat; split
  · exact s.presentAt_eq ..
  · rfl
@[simp] theorem State.presentBeat_pending (r : PortReq) (a : Nat) (l : List Byte) : (s.presentBeat r a l).pending = s.pending :=
  (congrArg State.pending (s.presentBeat_eq r a l) :)
@[simp] theorem State.presentBeat_free (r : PortReq) (a : Nat) (l : List Byte) : (s.presentBeat r a l).free = s.free :=
  (congrArg State.free (s.presentBeat_eq r a l) :)
@[simp] theorem State.presentBeat_straps (r : PortReq) (a : Nat) (l : List Byte) : (s.presentBeat r a l).straps = s.straps :=
  (congrArg State.straps (s.presentBeat_eq r a l) :)
@[simp] theorem State.presentBeat_mem (r : PortReq) (a : Nat) (l : List Byte) : (s.presentBeat r a l).mem = s.mem :=
  (congrArg State.mem (s.presentBeat_eq r a l) :)
@[simp] theorem State.presentBeat_ctl (r : PortReq) (a : Nat) (l : List Byte) : (s.presentBeat r a l).ctl = s.ctl :=
  (congrArg State.ctl (s.presentBeat_eq r a l) :)
@[simp] theorem State.presentBeat_dict (r : PortReq) (a : Nat) (l : List Byte) : (s.presentBeat r a l).dict = s.dict :=
  (congrArg State.dict (s.presentBeat_eq r a l) :)
@[simp] theorem State.presentBeat_prot (r : PortReq) (a : Nat) (l : List Byte) : (s.presentBeat r a l).prot = s.prot :=
  (congrArg State.prot (s.presentBeat_eq r a l) :)
@[simp] theorem State.presentBeat_ctxs (r : PortReq) (a : Nat) (l : List Byte) : (s.presentBeat r a l).ctxs = s.ctxs :=
  (congrArg State.ctxs (s.presentBeat_eq r a l) :)
@[simp] theorem State.presentBeat_sched (r : PortReq) (a : Nat) (l : List Byte) : (s.presentBeat r a l).sched = s.sched :=
  (congrArg State.sched (s.presentBeat_eq r a l) :)
@[simp] theorem State.presentBeat_pool (r : PortReq) (a : Nat) (l : List Byte) : (s.presentBeat r a l).pool = s.pool :=
  (congrArg State.pool (s.presentBeat_eq r a l) :)
@[simp] theorem State.presentBeat_jrn (r : PortReq) (a : Nat) (l : List Byte) : (s.presentBeat r a l).jrn = s.jrn :=
  (congrArg State.jrn (s.presentBeat_eq r a l) :)
@[simp] theorem State.presentBeat_twin (r : PortReq) (a : Nat) (l : List Byte) : (s.presentBeat r a l).twin = s.twin :=
  (congrArg State.twin (s.presentBeat_eq r a l) :)
@[simp] theorem State.presentBeat_fab (r : PortReq) (a : Nat) (l : List Byte) : (s.presentBeat r a l).fab = s.fab :=
  (congrArg State.fab (s.presentBeat_eq r a l) :)
@[simp] theorem State.presentBeat_islands (r : PortReq) (a : Nat) (l : List Byte) : (s.presentBeat r a l).islands = s.islands :=
  (congrArg State.islands (s.presentBeat_eq r a l) :)
@[simp] theorem State.presentBeat_scrub (r : PortReq) (a : Nat) (l : List Byte) : (s.presentBeat r a l).scrub = s.scrub :=
  (congrArg State.scrub (s.presentBeat_eq r a l) :)
@[simp] theorem State.presentBeat_tapReset (r : PortReq) (a : Nat) (l : List Byte) : (s.presentBeat r a l).tapReset = s.tapReset :=
  (congrArg State.tapReset (s.presentBeat_eq r a l) :)
theorem State.presentWrite_eq (o : Owner) (q k a : Nat) (l : List Byte) : s.presentWrite o q k a l =
    { s with ports := (s.presentWrite o q k a l).ports, stash := (s.presentWrite o q k a l).stash } := by
  unfold State.presentWrite; exact s.presentBeat_eq ..
@[simp] theorem State.presentWrite_pending (o : Owner) (q k a : Nat) (l : List Byte) : (s.presentWrite o q k a l).pending = s.pending :=
  (congrArg State.pending (s.presentWrite_eq o q k a l) :)
@[simp] theorem State.presentWrite_free (o : Owner) (q k a : Nat) (l : List Byte) : (s.presentWrite o q k a l).free = s.free :=
  (congrArg State.free (s.presentWrite_eq o q k a l) :)
@[simp] theorem State.presentWrite_straps (o : Owner) (q k a : Nat) (l : List Byte) : (s.presentWrite o q k a l).straps = s.straps :=
  (congrArg State.straps (s.presentWrite_eq o q k a l) :)
@[simp] theorem State.presentWrite_mem (o : Owner) (q k a : Nat) (l : List Byte) : (s.presentWrite o q k a l).mem = s.mem :=
  (congrArg State.mem (s.presentWrite_eq o q k a l) :)
@[simp] theorem State.presentWrite_ctl (o : Owner) (q k a : Nat) (l : List Byte) : (s.presentWrite o q k a l).ctl = s.ctl :=
  (congrArg State.ctl (s.presentWrite_eq o q k a l) :)
@[simp] theorem State.presentWrite_dict (o : Owner) (q k a : Nat) (l : List Byte) : (s.presentWrite o q k a l).dict = s.dict :=
  (congrArg State.dict (s.presentWrite_eq o q k a l) :)
@[simp] theorem State.presentWrite_prot (o : Owner) (q k a : Nat) (l : List Byte) : (s.presentWrite o q k a l).prot = s.prot :=
  (congrArg State.prot (s.presentWrite_eq o q k a l) :)
@[simp] theorem State.presentWrite_ctxs (o : Owner) (q k a : Nat) (l : List Byte) : (s.presentWrite o q k a l).ctxs = s.ctxs :=
  (congrArg State.ctxs (s.presentWrite_eq o q k a l) :)
@[simp] theorem State.presentWrite_sched (o : Owner) (q k a : Nat) (l : List Byte) : (s.presentWrite o q k a l).sched = s.sched :=
  (congrArg State.sched (s.presentWrite_eq o q k a l) :)
@[simp] theorem State.presentWrite_pool (o : Owner) (q k a : Nat) (l : List Byte) : (s.presentWrite o q k a l).pool = s.pool :=
  (congrArg State.pool (s.presentWrite_eq o q k a l) :)
@[simp] theorem State.presentWrite_jrn (o : Owner) (q k a : Nat) (l : List Byte) : (s.presentWrite o q k a l).jrn = s.jrn :=
  (congrArg State.jrn (s.presentWrite_eq o q k a l) :)
@[simp] theorem State.presentWrite_twin (o : Owner) (q k a : Nat) (l : List Byte) : (s.presentWrite o q k a l).twin = s.twin :=
  (congrArg State.twin (s.presentWrite_eq o q k a l) :)
@[simp] theorem State.presentWrite_fab (o : Owner) (q k a : Nat) (l : List Byte) : (s.presentWrite o q k a l).fab = s.fab :=
  (congrArg State.fab (s.presentWrite_eq o q k a l) :)
@[simp] theorem State.presentWrite_islands (o : Owner) (q k a : Nat) (l : List Byte) : (s.presentWrite o q k a l).islands = s.islands :=
  (congrArg State.islands (s.presentWrite_eq o q k a l) :)
@[simp] theorem State.presentWrite_scrub (o : Owner) (q k a : Nat) (l : List Byte) : (s.presentWrite o q k a l).scrub = s.scrub :=
  (congrArg State.scrub (s.presentWrite_eq o q k a l) :)
@[simp] theorem State.presentWrite_tapReset (o : Owner) (q k a : Nat) (l : List Byte) : (s.presentWrite o q k a l).tapReset = s.tapReset :=
  (congrArg State.tapReset (s.presentWrite_eq o q k a l) :)
theorem State.presentRead_eq (o : Owner) (q k a : Nat) : s.presentRead o q k a =
    { s with ports := (s.presentRead o q k a).ports } := by
  unfold State.presentRead; split <;> rfl
@[simp] theorem State.presentRead_pending (o : Owner) (q k a : Nat) : (s.presentRead o q k a).pending = s.pending :=
  (congrArg State.pending (s.presentRead_eq o q k a) :)
@[simp] theorem State.presentRead_free (o : Owner) (q k a : Nat) : (s.presentRead o q k a).free = s.free :=
  (congrArg State.free (s.presentRead_eq o q k a) :)
@[simp] theorem State.presentRead_straps (o : Owner) (q k a : Nat) : (s.presentRead o q k a).straps = s.straps :=
  (congrArg State.straps (s.presentRead_eq o q k a) :)
@[simp] theorem State.presentRead_mem (o : Owner) (q k a : Nat) : (s.presentRead o q k a).mem = s.mem :=
  (congrArg State.mem (s.presentRead_eq o q k a) :)
@[simp] theorem State.presentRead_ctl (o : Owner) (q k a : Nat) : (s.presentRead o q k a).ctl = s.ctl :=
  (congrArg State.ctl (s.presentRead_eq o q k a) :)
@[simp] theorem State.presentRead_dict (o : Owner) (q k a : Nat) : (s.presentRead o q k a).dict = s.dict :=
  (congrArg State.dict (s.presentRead_eq o q k a) :)
@[simp] theorem State.presentRead_prot (o : Owner) (q k a : Nat) : (s.presentRead o q k a).prot = s.prot :=
  (congrArg State.prot (s.presentRead_eq o q k a) :)
@[simp] theorem State.presentRead_ctxs (o : Owner) (q k a : Nat) : (s.presentRead o q k a).ctxs = s.ctxs :=
  (congrArg State.ctxs (s.presentRead_eq o q k a) :)
@[simp] theorem State.presentRead_sched (o : Owner) (q k a : Nat) : (s.presentRead o q k a).sched = s.sched :=
  (congrArg State.sched (s.presentRead_eq o q k a) :)
@[simp] theorem State.presentRead_pool (o : Owner) (q k a : Nat) : (s.presentRead o q k a).pool = s.pool :=
  (congrArg State.pool (s.presentRead_eq o q k a) :)
@[simp] theorem State.presentRead_jrn (o : Owner) (q k a : Nat) : (s.presentRead o q k a).jrn = s.jrn :=
  (congrArg State.jrn (s.presentRead_eq o q k a) :)
@[simp] theorem State.presentRead_twin (o : Owner) (q k a : Nat) : (s.presentRead o q k a).twin = s.twin :=
  (congrArg State.twin (s.presentRead_eq o q k a) :)
@[simp] theorem State.presentRead_fab (o : Owner) (q k a : Nat) : (s.presentRead o q k a).fab = s.fab :=
  (congrArg State.fab (s.presentRead_eq o q k a) :)
@[simp] theorem State.presentRead_islands (o : Owner) (q k a : Nat) : (s.presentRead o q k a).islands = s.islands :=
  (congrArg State.islands (s.presentRead_eq o q k a) :)
@[simp] theorem State.presentRead_stash (o : Owner) (q k a : Nat) : (s.presentRead o q k a).stash = s.stash :=
  (congrArg State.stash (s.presentRead_eq o q k a) :)
@[simp] theorem State.presentRead_scrub (o : Owner) (q k a : Nat) : (s.presentRead o q k a).scrub = s.scrub :=
  (congrArg State.scrub (s.presentRead_eq o q k a) :)
@[simp] theorem State.presentRead_tapReset (o : Owner) (q k a : Nat) : (s.presentRead o q k a).tapReset = s.tapReset :=
  (congrArg State.tapReset (s.presentRead_eq o q k a) :)
theorem State.sendFrame_eq (f : Frame) : s.sendFrame f =
    { s with fab := (s.sendFrame f).fab } := by
  unfold State.sendFrame; split <;> rfl
@[simp] theorem State.sendFrame_pending (f : Frame) : (s.sendFrame f).pending = s.pending :=
  (congrArg State.pending (s.sendFrame_eq f) :)
@[simp] theorem State.sendFrame_free (f : Frame) : (s.sendFrame f).free = s.free :=
  (congrArg State.free (s.sendFrame_eq f) :)
@[simp] theorem State.sendFrame_straps (f : Frame) : (s.sendFrame f).straps = s.straps :=
  (congrArg State.straps (s.sendFrame_eq f) :)
@[simp] theorem State.sendFrame_mem (f : Frame) : (s.sendFrame f).mem = s.mem :=
  (congrArg State.mem (s.sendFrame_eq f) :)
@[simp] theorem State.sendFrame_ctl (f : Frame) : (s.sendFrame f).ctl = s.ctl :=
  (congrArg State.ctl (s.sendFrame_eq f) :)
@[simp] theorem State.sendFrame_dict (f : Frame) : (s.sendFrame f).dict = s.dict :=
  (congrArg State.dict (s.sendFrame_eq f) :)
@[simp] theorem State.sendFrame_prot (f : Frame) : (s.sendFrame f).prot = s.prot :=
  (congrArg State.prot (s.sendFrame_eq f) :)
@[simp] theorem State.sendFrame_ctxs (f : Frame) : (s.sendFrame f).ctxs = s.ctxs :=
  (congrArg State.ctxs (s.sendFrame_eq f) :)
@[simp] theorem State.sendFrame_sched (f : Frame) : (s.sendFrame f).sched = s.sched :=
  (congrArg State.sched (s.sendFrame_eq f) :)
@[simp] theorem State.sendFrame_ports (f : Frame) : (s.sendFrame f).ports = s.ports :=
  (congrArg State.ports (s.sendFrame_eq f) :)
@[simp] theorem State.sendFrame_pool (f : Frame) : (s.sendFrame f).pool = s.pool :=
  (congrArg State.pool (s.sendFrame_eq f) :)
@[simp] theorem State.sendFrame_jrn (f : Frame) : (s.sendFrame f).jrn = s.jrn :=
  (congrArg State.jrn (s.sendFrame_eq f) :)
@[simp] theorem State.sendFrame_twin (f : Frame) : (s.sendFrame f).twin = s.twin :=
  (congrArg State.twin (s.sendFrame_eq f) :)
@[simp] theorem State.sendFrame_islands (f : Frame) : (s.sendFrame f).islands = s.islands :=
  (congrArg State.islands (s.sendFrame_eq f) :)
@[simp] theorem State.sendFrame_stash (f : Frame) : (s.sendFrame f).stash = s.stash :=
  (congrArg State.stash (s.sendFrame_eq f) :)
@[simp] theorem State.sendFrame_scrub (f : Frame) : (s.sendFrame f).scrub = s.scrub :=
  (congrArg State.scrub (s.sendFrame_eq f) :)
@[simp] theorem State.sendFrame_tapReset (f : Frame) : (s.sendFrame f).tapReset = s.tapReset :=
  (congrArg State.tapReset (s.sendFrame_eq f) :)
theorem State.upkeepNext_eq : s.upkeepNext =
    { s with ports := (s.upkeepNext).ports, jrn := (s.upkeepNext).jrn, stash := (s.upkeepNext).stash } := by
  unfold State.upkeepNext; split
  · rfl
  · split
    · rfl
    · rw [State.presentWrite_eq]
@[simp] theorem State.upkeepNext_pending : (s.upkeepNext).pending = s.pending :=
  (congrArg State.pending (s.upkeepNext_eq) :)
@[simp] theorem State.upkeepNext_free : (s.upkeepNext).free = s.free :=
  (congrArg State.free (s.upkeepNext_eq) :)
@[simp] theorem State.upkeepNext_straps : (s.upkeepNext).straps = s.straps :=
  (congrArg State.straps (s.upkeepNext_eq) :)
@[simp] theorem State.upkeepNext_mem : (s.upkeepNext).mem = s.mem :=
  (congrArg State.mem (s.upkeepNext_eq) :)
@[simp] theorem State.upkeepNext_ctl : (s.upkeepNext).ctl = s.ctl :=
  (congrArg State.ctl (s.upkeepNext_eq) :)
@[simp] theorem State.upkeepNext_dict : (s.upkeepNext).dict = s.dict :=
  (congrArg State.dict (s.upkeepNext_eq) :)
@[simp] theorem State.upkeepNext_prot : (s.upkeepNext).prot = s.prot :=
  (congrArg State.prot (s.upkeepNext_eq) :)
@[simp] theorem State.upkeepNext_ctxs : (s.upkeepNext).ctxs = s.ctxs :=
  (congrArg State.ctxs (s.upkeepNext_eq) :)
@[simp] theorem State.upkeepNext_sched : (s.upkeepNext).sched = s.sched :=
  (congrArg State.sched (s.upkeepNext_eq) :)
@[simp] theorem State.upkeepNext_pool : (s.upkeepNext).pool = s.pool :=
  (congrArg State.pool (s.upkeepNext_eq) :)
@[simp] theorem State.upkeepNext_twin : (s.upkeepNext).twin = s.twin :=
  (congrArg State.twin (s.upkeepNext_eq) :)
@[simp] theorem State.upkeepNext_fab : (s.upkeepNext).fab = s.fab :=
  (congrArg State.fab (s.upkeepNext_eq) :)
@[simp] theorem State.upkeepNext_islands : (s.upkeepNext).islands = s.islands :=
  (congrArg State.islands (s.upkeepNext_eq) :)
@[simp] theorem State.upkeepNext_scrub : (s.upkeepNext).scrub = s.scrub :=
  (congrArg State.scrub (s.upkeepNext_eq) :)
@[simp] theorem State.upkeepNext_tapReset : (s.upkeepNext).tapReset = s.tapReset :=
  (congrArg State.tapReset (s.upkeepNext_eq) :)
theorem State.upkeepWrite_eq (a : Nat) (l : List Byte) : s.upkeepWrite a l =
    { s with ports := (s.upkeepWrite a l).ports, jrn := (s.upkeepWrite a l).jrn, stash := (s.upkeepWrite a l).stash } := by
  unfold State.upkeepWrite; rw [State.upkeepNext_eq]
@[simp] theorem State.upkeepWrite_pending (a : Nat) (l : List Byte) : (s.upkeepWrite a l).pending = s.pending :=
  (congrArg State.pending (s.upkeepWrite_eq a l) :)
@[simp] theorem State.upkeepWrite_free (a : Nat) (l : List Byte) : (s.upkeepWrite a l).free = s.free :=
  (congrArg State.free (s.upkeepWrite_eq a l) :)
@[simp] theorem State.upkeepWrite_straps (a : Nat) (l : List Byte) : (s.upkeepWrite a l).straps = s.straps :=
  (congrArg State.straps (s.upkeepWrite_eq a l) :)
@[simp] theorem State.upkeepWrite_mem (a : Nat) (l : List Byte) : (s.upkeepWrite a l).mem = s.mem :=
  (congrArg State.mem (s.upkeepWrite_eq a l) :)
@[simp] theorem State.upkeepWrite_ctl (a : Nat) (l : List Byte) : (s.upkeepWrite a l).ctl = s.ctl :=
  (congrArg State.ctl (s.upkeepWrite_eq a l) :)
@[simp] theorem State.upkeepWrite_dict (a : Nat) (l : List Byte) : (s.upkeepWrite a l).dict = s.dict :=
  (congrArg State.dict (s.upkeepWrite_eq a l) :)
@[simp] theorem State.upkeepWrite_prot (a : Nat) (l : List Byte) : (s.upkeepWrite a l).prot = s.prot :=
  (congrArg State.prot (s.upkeepWrite_eq a l) :)
@[simp] theorem State.upkeepWrite_ctxs (a : Nat) (l : List Byte) : (s.upkeepWrite a l).ctxs = s.ctxs :=
  (congrArg State.ctxs (s.upkeepWrite_eq a l) :)
@[simp] theorem State.upkeepWrite_sched (a : Nat) (l : List Byte) : (s.upkeepWrite a l).sched = s.sched :=
  (congrArg State.sched (s.upkeepWrite_eq a l) :)
@[simp] theorem State.upkeepWrite_pool (a : Nat) (l : List Byte) : (s.upkeepWrite a l).pool = s.pool :=
  (congrArg State.pool (s.upkeepWrite_eq a l) :)
@[simp] theorem State.upkeepWrite_twin (a : Nat) (l : List Byte) : (s.upkeepWrite a l).twin = s.twin :=
  (congrArg State.twin (s.upkeepWrite_eq a l) :)
@[simp] theorem State.upkeepWrite_fab (a : Nat) (l : List Byte) : (s.upkeepWrite a l).fab = s.fab :=
  (congrArg State.fab (s.upkeepWrite_eq a l) :)
@[simp] theorem State.upkeepWrite_islands (a : Nat) (l : List Byte) : (s.upkeepWrite a l).islands = s.islands :=
  (congrArg State.islands (s.upkeepWrite_eq a l) :)
@[simp] theorem State.upkeepWrite_scrub (a : Nat) (l : List Byte) : (s.upkeepWrite a l).scrub = s.scrub :=
  (congrArg State.scrub (s.upkeepWrite_eq a l) :)
@[simp] theorem State.upkeepWrite_tapReset (a : Nat) (l : List Byte) : (s.upkeepWrite a l).tapReset = s.tapReset :=
  (congrArg State.tapReset (s.upkeepWrite_eq a l) :)
theorem State.writeAnchor_eq : s.writeAnchor =
    { s with ports := (s.writeAnchor).ports, jrn := (s.writeAnchor).jrn, stash := (s.writeAnchor).stash } := by
  exact s.upkeepWrite_eq ..
@[simp] theorem State.writeAnchor_pending : (s.writeAnchor).pending = s.pending :=
  (congrArg State.pending (s.writeAnchor_eq) :)
@[simp] theorem State.writeAnchor_free : (s.writeAnchor).free = s.free :=
  (congrArg State.free (s.writeAnchor_eq) :)
@[simp] theorem State.writeAnchor_straps : (s.writeAnchor).straps = s.straps :=
  (congrArg State.straps (s.writeAnchor_eq) :)
@[simp] theorem State.writeAnchor_mem : (s.writeAnchor).mem = s.mem :=
  (congrArg State.mem (s.writeAnchor_eq) :)
@[simp] theorem State.writeAnchor_ctl : (s.writeAnchor).ctl = s.ctl :=
  (congrArg State.ctl (s.writeAnchor_eq) :)
@[simp] theorem State.writeAnchor_dict : (s.writeAnchor).dict = s.dict :=
  (congrArg State.dict (s.writeAnchor_eq) :)
@[simp] theorem State.writeAnchor_prot : (s.writeAnchor).prot = s.prot :=
  (congrArg State.prot (s.writeAnchor_eq) :)
@[simp] theorem State.writeAnchor_ctxs : (s.writeAnchor).ctxs = s.ctxs :=
  (congrArg State.ctxs (s.writeAnchor_eq) :)
@[simp] theorem State.writeAnchor_sched : (s.writeAnchor).sched = s.sched :=
  (congrArg State.sched (s.writeAnchor_eq) :)
@[simp] theorem State.writeAnchor_pool : (s.writeAnchor).pool = s.pool :=
  (congrArg State.pool (s.writeAnchor_eq) :)
@[simp] theorem State.writeAnchor_twin : (s.writeAnchor).twin = s.twin :=
  (congrArg State.twin (s.writeAnchor_eq) :)
@[simp] theorem State.writeAnchor_fab : (s.writeAnchor).fab = s.fab :=
  (congrArg State.fab (s.writeAnchor_eq) :)
@[simp] theorem State.writeAnchor_islands : (s.writeAnchor).islands = s.islands :=
  (congrArg State.islands (s.writeAnchor_eq) :)
@[simp] theorem State.writeAnchor_scrub : (s.writeAnchor).scrub = s.scrub :=
  (congrArg State.scrub (s.writeAnchor_eq) :)
@[simp] theorem State.writeAnchor_tapReset : (s.writeAnchor).tapReset = s.tapReset :=
  (congrArg State.tapReset (s.writeAnchor_eq) :)
theorem State.issueLocal_eq (r : Record) : s.issueLocal r =
    { s with ports := (s.issueLocal r).ports, jrn := (s.issueLocal r).jrn, stash := (s.issueLocal r).stash } := by
  unfold State.issueLocal; dsimp only; rw [State.presentWrite_eq]
@[simp] theorem State.issueLocal_pending (r : Record) : (s.issueLocal r).pending = s.pending :=
  (congrArg State.pending (s.issueLocal_eq r) :)
@[simp] theorem State.issueLocal_free (r : Record) : (s.issueLocal r).free = s.free :=
  (congrArg State.free (s.issueLocal_eq r) :)
@[simp] theorem State.issueLocal_straps (r : Record) : (s.issueLocal r).straps = s.straps :=
  (congrArg State.straps (s.issueLocal_eq r) :)
@[simp] theorem State.issueLocal_mem (r : Record) : (s.issueLocal r).mem = s.mem :=
  (congrArg State.mem (s.issueLocal_eq r) :)
@[simp] theorem State.issueLocal_ctl (r : Record) : (s.issueLocal r).ctl = s.ctl :=
  (congrArg State.ctl (s.issueLocal_eq r) :)
@[simp] theorem State.issueLocal_dict (r : Record) : (s.issueLocal r).dict = s.dict :=
  (congrArg State.dict (s.issueLocal_eq r) :)
@[simp] theorem State.issueLocal_prot (r : Record) : (s.issueLocal r).prot = s.prot :=
  (congrArg State.prot (s.issueLocal_eq r) :)
@[simp] theorem State.issueLocal_ctxs (r : Record) : (s.issueLocal r).ctxs = s.ctxs :=
  (congrArg State.ctxs (s.issueLocal_eq r) :)
@[simp] theorem State.issueLocal_sched (r : Record) : (s.issueLocal r).sched = s.sched :=
  (congrArg State.sched (s.issueLocal_eq r) :)
@[simp] theorem State.issueLocal_pool (r : Record) : (s.issueLocal r).pool = s.pool :=
  (congrArg State.pool (s.issueLocal_eq r) :)
@[simp] theorem State.issueLocal_twin (r : Record) : (s.issueLocal r).twin = s.twin :=
  (congrArg State.twin (s.issueLocal_eq r) :)
@[simp] theorem State.issueLocal_fab (r : Record) : (s.issueLocal r).fab = s.fab :=
  (congrArg State.fab (s.issueLocal_eq r) :)
@[simp] theorem State.issueLocal_islands (r : Record) : (s.issueLocal r).islands = s.islands :=
  (congrArg State.islands (s.issueLocal_eq r) :)
@[simp] theorem State.issueLocal_scrub (r : Record) : (s.issueLocal r).scrub = s.scrub :=
  (congrArg State.scrub (s.issueLocal_eq r) :)
@[simp] theorem State.issueLocal_tapReset (r : Record) : (s.issueLocal r).tapReset = s.tapReset :=
  (congrArg State.tapReset (s.issueLocal_eq r) :)
theorem State.issueRecord_eq (r : Record) : s.issueRecord r =
    { s with ports := (s.issueRecord r).ports, jrn := (s.issueRecord r).jrn, fab := (s.issueRecord r).fab, stash := (s.issueRecord r).stash } := by
  unfold State.issueRecord; dsimp only; split
  · rw [State.sendFrame_eq, State.issueLocal_eq]
  · rw [State.issueLocal_eq]
@[simp] theorem State.issueRecord_pending (r : Record) : (s.issueRecord r).pending = s.pending :=
  (congrArg State.pending (s.issueRecord_eq r) :)
@[simp] theorem State.issueRecord_free (r : Record) : (s.issueRecord r).free = s.free :=
  (congrArg State.free (s.issueRecord_eq r) :)
@[simp] theorem State.issueRecord_straps (r : Record) : (s.issueRecord r).straps = s.straps :=
  (congrArg State.straps (s.issueRecord_eq r) :)
@[simp] theorem State.issueRecord_mem (r : Record) : (s.issueRecord r).mem = s.mem :=
  (congrArg State.mem (s.issueRecord_eq r) :)
@[simp] theorem State.issueRecord_ctl (r : Record) : (s.issueRecord r).ctl = s.ctl :=
  (congrArg State.ctl (s.issueRecord_eq r) :)
@[simp] theorem State.issueRecord_dict (r : Record) : (s.issueRecord r).dict = s.dict :=
  (congrArg State.dict (s.issueRecord_eq r) :)
@[simp] theorem State.issueRecord_prot (r : Record) : (s.issueRecord r).prot = s.prot :=
  (congrArg State.prot (s.issueRecord_eq r) :)
@[simp] theorem State.issueRecord_ctxs (r : Record) : (s.issueRecord r).ctxs = s.ctxs :=
  (congrArg State.ctxs (s.issueRecord_eq r) :)
@[simp] theorem State.issueRecord_sched (r : Record) : (s.issueRecord r).sched = s.sched :=
  (congrArg State.sched (s.issueRecord_eq r) :)
@[simp] theorem State.issueRecord_pool (r : Record) : (s.issueRecord r).pool = s.pool :=
  (congrArg State.pool (s.issueRecord_eq r) :)
@[simp] theorem State.issueRecord_twin (r : Record) : (s.issueRecord r).twin = s.twin :=
  (congrArg State.twin (s.issueRecord_eq r) :)
@[simp] theorem State.issueRecord_islands (r : Record) : (s.issueRecord r).islands = s.islands :=
  (congrArg State.islands (s.issueRecord_eq r) :)
@[simp] theorem State.issueRecord_scrub (r : Record) : (s.issueRecord r).scrub = s.scrub :=
  (congrArg State.scrub (s.issueRecord_eq r) :)
@[simp] theorem State.issueRecord_tapReset (r : Record) : (s.issueRecord r).tapReset = s.tapReset :=
  (congrArg State.tapReset (s.issueRecord_eq r) :)
theorem State.writeRecord_eq (r : Record) : s.writeRecord r =
    { s with ports := (s.writeRecord r).ports, jrn := (s.writeRecord r).jrn, fab := (s.writeRecord r).fab, stash := (s.writeRecord r).stash } := by
  exact s.issueRecord_eq _
@[simp] theorem State.writeRecord_pending (r : Record) : (s.writeRecord r).pending = s.pending :=
  (congrArg State.pending (s.writeRecord_eq r) :)
@[simp] theorem State.writeRecord_free (r : Record) : (s.writeRecord r).free = s.free :=
  (congrArg State.free (s.writeRecord_eq r) :)
@[simp] theorem State.writeRecord_straps (r : Record) : (s.writeRecord r).straps = s.straps :=
  (congrArg State.straps (s.writeRecord_eq r) :)
@[simp] theorem State.writeRecord_mem (r : Record) : (s.writeRecord r).mem = s.mem :=
  (congrArg State.mem (s.writeRecord_eq r) :)
@[simp] theorem State.writeRecord_ctl (r : Record) : (s.writeRecord r).ctl = s.ctl :=
  (congrArg State.ctl (s.writeRecord_eq r) :)
@[simp] theorem State.writeRecord_dict (r : Record) : (s.writeRecord r).dict = s.dict :=
  (congrArg State.dict (s.writeRecord_eq r) :)
@[simp] theorem State.writeRecord_prot (r : Record) : (s.writeRecord r).prot = s.prot :=
  (congrArg State.prot (s.writeRecord_eq r) :)
@[simp] theorem State.writeRecord_ctxs (r : Record) : (s.writeRecord r).ctxs = s.ctxs :=
  (congrArg State.ctxs (s.writeRecord_eq r) :)
@[simp] theorem State.writeRecord_sched (r : Record) : (s.writeRecord r).sched = s.sched :=
  (congrArg State.sched (s.writeRecord_eq r) :)
@[simp] theorem State.writeRecord_pool (r : Record) : (s.writeRecord r).pool = s.pool :=
  (congrArg State.pool (s.writeRecord_eq r) :)
@[simp] theorem State.writeRecord_twin (r : Record) : (s.writeRecord r).twin = s.twin :=
  (congrArg State.twin (s.writeRecord_eq r) :)
@[simp] theorem State.writeRecord_islands (r : Record) : (s.writeRecord r).islands = s.islands :=
  (congrArg State.islands (s.writeRecord_eq r) :)
@[simp] theorem State.writeRecord_scrub (r : Record) : (s.writeRecord r).scrub = s.scrub :=
  (congrArg State.scrub (s.writeRecord_eq r) :)
@[simp] theorem State.writeRecord_tapReset (r : Record) : (s.writeRecord r).tapReset = s.tapReset :=
  (congrArg State.tapReset (s.writeRecord_eq r) :)
theorem State.journalFull_eq (k : RecKind) : s.journalFull k =
    { s with ctl := (s.journalFull k).ctl, jrn := (s.journalFull k).jrn } := by
  unfold State.journalFull; split
  · rfl
  · rw [State.raiseIf_eq]
@[simp] theorem State.journalFull_pending (k : RecKind) : (s.journalFull k).pending = s.pending :=
  (congrArg State.pending (s.journalFull_eq k) :)
@[simp] theorem State.journalFull_free (k : RecKind) : (s.journalFull k).free = s.free :=
  (congrArg State.free (s.journalFull_eq k) :)
@[simp] theorem State.journalFull_straps (k : RecKind) : (s.journalFull k).straps = s.straps :=
  (congrArg State.straps (s.journalFull_eq k) :)
@[simp] theorem State.journalFull_mem (k : RecKind) : (s.journalFull k).mem = s.mem :=
  (congrArg State.mem (s.journalFull_eq k) :)
@[simp] theorem State.journalFull_dict (k : RecKind) : (s.journalFull k).dict = s.dict :=
  (congrArg State.dict (s.journalFull_eq k) :)
@[simp] theorem State.journalFull_prot (k : RecKind) : (s.journalFull k).prot = s.prot :=
  (congrArg State.prot (s.journalFull_eq k) :)
@[simp] theorem State.journalFull_ctxs (k : RecKind) : (s.journalFull k).ctxs = s.ctxs :=
  (congrArg State.ctxs (s.journalFull_eq k) :)
@[simp] theorem State.journalFull_sched (k : RecKind) : (s.journalFull k).sched = s.sched :=
  (congrArg State.sched (s.journalFull_eq k) :)
@[simp] theorem State.journalFull_ports (k : RecKind) : (s.journalFull k).ports = s.ports :=
  (congrArg State.ports (s.journalFull_eq k) :)
@[simp] theorem State.journalFull_pool (k : RecKind) : (s.journalFull k).pool = s.pool :=
  (congrArg State.pool (s.journalFull_eq k) :)
@[simp] theorem State.journalFull_twin (k : RecKind) : (s.journalFull k).twin = s.twin :=
  (congrArg State.twin (s.journalFull_eq k) :)
@[simp] theorem State.journalFull_fab (k : RecKind) : (s.journalFull k).fab = s.fab :=
  (congrArg State.fab (s.journalFull_eq k) :)
@[simp] theorem State.journalFull_islands (k : RecKind) : (s.journalFull k).islands = s.islands :=
  (congrArg State.islands (s.journalFull_eq k) :)
@[simp] theorem State.journalFull_stash (k : RecKind) : (s.journalFull k).stash = s.stash :=
  (congrArg State.stash (s.journalFull_eq k) :)
@[simp] theorem State.journalFull_scrub (k : RecKind) : (s.journalFull k).scrub = s.scrub :=
  (congrArg State.scrub (s.journalFull_eq k) :)
@[simp] theorem State.journalFull_tapReset (k : RecKind) : (s.journalFull k).tapReset = s.tapReset :=
  (congrArg State.tapReset (s.journalFull_eq k) :)
theorem State.writeWord_eq (c : Nat) : s.writeWord c =
    { s with ctxs := (s.writeWord c).ctxs, ports := (s.writeWord c).ports, stash := (s.writeWord c).stash } := by
  unfold State.writeWord; split
  · rfl
  · rw [State.presentWrite_eq]; rfl
@[simp] theorem State.writeWord_pending (c : Nat) : (s.writeWord c).pending = s.pending :=
  (congrArg State.pending (s.writeWord_eq c) :)
@[simp] theorem State.writeWord_free (c : Nat) : (s.writeWord c).free = s.free :=
  (congrArg State.free (s.writeWord_eq c) :)
@[simp] theorem State.writeWord_straps (c : Nat) : (s.writeWord c).straps = s.straps :=
  (congrArg State.straps (s.writeWord_eq c) :)
@[simp] theorem State.writeWord_mem (c : Nat) : (s.writeWord c).mem = s.mem :=
  (congrArg State.mem (s.writeWord_eq c) :)
@[simp] theorem State.writeWord_ctl (c : Nat) : (s.writeWord c).ctl = s.ctl :=
  (congrArg State.ctl (s.writeWord_eq c) :)
@[simp] theorem State.writeWord_dict (c : Nat) : (s.writeWord c).dict = s.dict :=
  (congrArg State.dict (s.writeWord_eq c) :)
@[simp] theorem State.writeWord_prot (c : Nat) : (s.writeWord c).prot = s.prot :=
  (congrArg State.prot (s.writeWord_eq c) :)
@[simp] theorem State.writeWord_sched (c : Nat) : (s.writeWord c).sched = s.sched :=
  (congrArg State.sched (s.writeWord_eq c) :)
@[simp] theorem State.writeWord_pool (c : Nat) : (s.writeWord c).pool = s.pool :=
  (congrArg State.pool (s.writeWord_eq c) :)
@[simp] theorem State.writeWord_jrn (c : Nat) : (s.writeWord c).jrn = s.jrn :=
  (congrArg State.jrn (s.writeWord_eq c) :)
@[simp] theorem State.writeWord_twin (c : Nat) : (s.writeWord c).twin = s.twin :=
  (congrArg State.twin (s.writeWord_eq c) :)
@[simp] theorem State.writeWord_fab (c : Nat) : (s.writeWord c).fab = s.fab :=
  (congrArg State.fab (s.writeWord_eq c) :)
@[simp] theorem State.writeWord_islands (c : Nat) : (s.writeWord c).islands = s.islands :=
  (congrArg State.islands (s.writeWord_eq c) :)
@[simp] theorem State.writeWord_scrub (c : Nat) : (s.writeWord c).scrub = s.scrub :=
  (congrArg State.scrub (s.writeWord_eq c) :)
@[simp] theorem State.writeWord_tapReset (c : Nat) : (s.writeWord c).tapReset = s.tapReset :=
  (congrArg State.tapReset (s.writeWord_eq c) :)
theorem State.poolAccess_eq (w : Bool) (l : List Beat) : s.poolAccess w l =
    { s with ports := (s.poolAccess w l).ports, stash := (s.poolAccess w l).stash } := by
  have key {β : Type} (l' : List β) (g : State → β → State) (hg : ∀ t b, t = { s with ports := t.ports, stash := t.stash } →
      g t b = { s with ports := (g t b).ports, stash := (g t b).stash }) (t : State)
      (h : t = { s with ports := t.ports, stash := t.stash }) :
      l'.foldl g t = { s with ports := (l'.foldl g t).ports, stash := (l'.foldl g t).stash } := by
    induction l' generalizing t with
    | nil => exact h
    | cons b r ih => exact ih _ (hg t b h)
  unfold State.poolAccess; dsimp only
  refine key _ _ (fun t b h => key _ _ (fun u c hu => ?_) _ h) _ (key _ _ (fun t b h => ?_) _ ?_)
  · rw [hu]; rfl
  · split
    · rw [h, State.giveTiles_eq]
    · exact h
  · split
    · rw [State.countFallbacks_eq]
    · rfl
@[simp] theorem State.poolAccess_pending (w : Bool) (l : List Beat) : (s.poolAccess w l).pending = s.pending :=
  (congrArg State.pending (s.poolAccess_eq w l) :)
@[simp] theorem State.poolAccess_free (w : Bool) (l : List Beat) : (s.poolAccess w l).free = s.free :=
  (congrArg State.free (s.poolAccess_eq w l) :)
@[simp] theorem State.poolAccess_straps (w : Bool) (l : List Beat) : (s.poolAccess w l).straps = s.straps :=
  (congrArg State.straps (s.poolAccess_eq w l) :)
@[simp] theorem State.poolAccess_mem (w : Bool) (l : List Beat) : (s.poolAccess w l).mem = s.mem :=
  (congrArg State.mem (s.poolAccess_eq w l) :)
@[simp] theorem State.poolAccess_ctl (w : Bool) (l : List Beat) : (s.poolAccess w l).ctl = s.ctl :=
  (congrArg State.ctl (s.poolAccess_eq w l) :)
@[simp] theorem State.poolAccess_dict (w : Bool) (l : List Beat) : (s.poolAccess w l).dict = s.dict :=
  (congrArg State.dict (s.poolAccess_eq w l) :)
@[simp] theorem State.poolAccess_prot (w : Bool) (l : List Beat) : (s.poolAccess w l).prot = s.prot :=
  (congrArg State.prot (s.poolAccess_eq w l) :)
@[simp] theorem State.poolAccess_ctxs (w : Bool) (l : List Beat) : (s.poolAccess w l).ctxs = s.ctxs :=
  (congrArg State.ctxs (s.poolAccess_eq w l) :)
@[simp] theorem State.poolAccess_sched (w : Bool) (l : List Beat) : (s.poolAccess w l).sched = s.sched :=
  (congrArg State.sched (s.poolAccess_eq w l) :)
@[simp] theorem State.poolAccess_pool (w : Bool) (l : List Beat) : (s.poolAccess w l).pool = s.pool :=
  (congrArg State.pool (s.poolAccess_eq w l) :)
@[simp] theorem State.poolAccess_jrn (w : Bool) (l : List Beat) : (s.poolAccess w l).jrn = s.jrn :=
  (congrArg State.jrn (s.poolAccess_eq w l) :)
@[simp] theorem State.poolAccess_twin (w : Bool) (l : List Beat) : (s.poolAccess w l).twin = s.twin :=
  (congrArg State.twin (s.poolAccess_eq w l) :)
@[simp] theorem State.poolAccess_fab (w : Bool) (l : List Beat) : (s.poolAccess w l).fab = s.fab :=
  (congrArg State.fab (s.poolAccess_eq w l) :)
@[simp] theorem State.poolAccess_islands (w : Bool) (l : List Beat) : (s.poolAccess w l).islands = s.islands :=
  (congrArg State.islands (s.poolAccess_eq w l) :)
@[simp] theorem State.poolAccess_scrub (w : Bool) (l : List Beat) : (s.poolAccess w l).scrub = s.scrub :=
  (congrArg State.scrub (s.poolAccess_eq w l) :)
@[simp] theorem State.poolAccess_tapReset (w : Bool) (l : List Beat) : (s.poolAccess w l).tapReset = s.tapReset :=
  (congrArg State.tapReset (s.poolAccess_eq w l) :)
theorem State.poolStart_eq : s.poolStart =
    { s with ports := (s.poolStart).ports, pool := (s.poolStart).pool, stash := (s.poolStart).stash } := by
  unfold State.poolStart; split
  · rfl
  · dsimp only; split
    · rfl
    · rw [State.poolAccess_eq]
@[simp] theorem State.poolStart_pending : (s.poolStart).pending = s.pending :=
  (congrArg State.pending (s.poolStart_eq) :)
@[simp] theorem State.poolStart_free : (s.poolStart).free = s.free :=
  (congrArg State.free (s.poolStart_eq) :)
@[simp] theorem State.poolStart_straps : (s.poolStart).straps = s.straps :=
  (congrArg State.straps (s.poolStart_eq) :)
@[simp] theorem State.poolStart_mem : (s.poolStart).mem = s.mem :=
  (congrArg State.mem (s.poolStart_eq) :)
@[simp] theorem State.poolStart_ctl : (s.poolStart).ctl = s.ctl :=
  (congrArg State.ctl (s.poolStart_eq) :)
@[simp] theorem State.poolStart_dict : (s.poolStart).dict = s.dict :=
  (congrArg State.dict (s.poolStart_eq) :)
@[simp] theorem State.poolStart_prot : (s.poolStart).prot = s.prot :=
  (congrArg State.prot (s.poolStart_eq) :)
@[simp] theorem State.poolStart_ctxs : (s.poolStart).ctxs = s.ctxs :=
  (congrArg State.ctxs (s.poolStart_eq) :)
@[simp] theorem State.poolStart_sched : (s.poolStart).sched = s.sched :=
  (congrArg State.sched (s.poolStart_eq) :)
@[simp] theorem State.poolStart_jrn : (s.poolStart).jrn = s.jrn :=
  (congrArg State.jrn (s.poolStart_eq) :)
@[simp] theorem State.poolStart_twin : (s.poolStart).twin = s.twin :=
  (congrArg State.twin (s.poolStart_eq) :)
@[simp] theorem State.poolStart_fab : (s.poolStart).fab = s.fab :=
  (congrArg State.fab (s.poolStart_eq) :)
@[simp] theorem State.poolStart_islands : (s.poolStart).islands = s.islands :=
  (congrArg State.islands (s.poolStart_eq) :)
@[simp] theorem State.poolStart_scrub : (s.poolStart).scrub = s.scrub :=
  (congrArg State.scrub (s.poolStart_eq) :)
@[simp] theorem State.poolStart_tapReset : (s.poolStart).tapReset = s.tapReset :=
  (congrArg State.tapReset (s.poolStart_eq) :)
theorem State.poolJobs_eq (l : List PoolJob) : s.poolJobs l =
    { s with ports := (s.poolJobs l).ports, pool := (s.poolJobs l).pool, stash := (s.poolJobs l).stash } := by
  unfold State.poolJobs; rw [State.poolStart_eq]
@[simp] theorem State.poolJobs_pending (l : List PoolJob) : (s.poolJobs l).pending = s.pending :=
  (congrArg State.pending (s.poolJobs_eq l) :)
@[simp] theorem State.poolJobs_free (l : List PoolJob) : (s.poolJobs l).free = s.free :=
  (congrArg State.free (s.poolJobs_eq l) :)
@[simp] theorem State.poolJobs_straps (l : List PoolJob) : (s.poolJobs l).straps = s.straps :=
  (congrArg State.straps (s.poolJobs_eq l) :)
@[simp] theorem State.poolJobs_mem (l : List PoolJob) : (s.poolJobs l).mem = s.mem :=
  (congrArg State.mem (s.poolJobs_eq l) :)
@[simp] theorem State.poolJobs_ctl (l : List PoolJob) : (s.poolJobs l).ctl = s.ctl :=
  (congrArg State.ctl (s.poolJobs_eq l) :)
@[simp] theorem State.poolJobs_dict (l : List PoolJob) : (s.poolJobs l).dict = s.dict :=
  (congrArg State.dict (s.poolJobs_eq l) :)
@[simp] theorem State.poolJobs_prot (l : List PoolJob) : (s.poolJobs l).prot = s.prot :=
  (congrArg State.prot (s.poolJobs_eq l) :)
@[simp] theorem State.poolJobs_ctxs (l : List PoolJob) : (s.poolJobs l).ctxs = s.ctxs :=
  (congrArg State.ctxs (s.poolJobs_eq l) :)
@[simp] theorem State.poolJobs_sched (l : List PoolJob) : (s.poolJobs l).sched = s.sched :=
  (congrArg State.sched (s.poolJobs_eq l) :)
@[simp] theorem State.poolJobs_jrn (l : List PoolJob) : (s.poolJobs l).jrn = s.jrn :=
  (congrArg State.jrn (s.poolJobs_eq l) :)
@[simp] theorem State.poolJobs_twin (l : List PoolJob) : (s.poolJobs l).twin = s.twin :=
  (congrArg State.twin (s.poolJobs_eq l) :)
@[simp] theorem State.poolJobs_fab (l : List PoolJob) : (s.poolJobs l).fab = s.fab :=
  (congrArg State.fab (s.poolJobs_eq l) :)
@[simp] theorem State.poolJobs_islands (l : List PoolJob) : (s.poolJobs l).islands = s.islands :=
  (congrArg State.islands (s.poolJobs_eq l) :)
@[simp] theorem State.poolJobs_scrub (l : List PoolJob) : (s.poolJobs l).scrub = s.scrub :=
  (congrArg State.scrub (s.poolJobs_eq l) :)
@[simp] theorem State.poolJobs_tapReset (l : List PoolJob) : (s.poolJobs l).tapReset = s.tapReset :=
  (congrArg State.tapReset (s.poolJobs_eq l) :)
theorem State.poolFirst_eq (l : List PoolJob) : s.poolFirst l =
    { s with pool := (s.poolFirst l).pool } := by
  rfl
@[simp] theorem State.poolFirst_pending (l : List PoolJob) : (s.poolFirst l).pending = s.pending :=
  (congrArg State.pending (s.poolFirst_eq l) :)
@[simp] theorem State.poolFirst_free (l : List PoolJob) : (s.poolFirst l).free = s.free :=
  (congrArg State.free (s.poolFirst_eq l) :)
@[simp] theorem State.poolFirst_straps (l : List PoolJob) : (s.poolFirst l).straps = s.straps :=
  (congrArg State.straps (s.poolFirst_eq l) :)
@[simp] theorem State.poolFirst_mem (l : List PoolJob) : (s.poolFirst l).mem = s.mem :=
  (congrArg State.mem (s.poolFirst_eq l) :)
@[simp] theorem State.poolFirst_ctl (l : List PoolJob) : (s.poolFirst l).ctl = s.ctl :=
  (congrArg State.ctl (s.poolFirst_eq l) :)
@[simp] theorem State.poolFirst_dict (l : List PoolJob) : (s.poolFirst l).dict = s.dict :=
  (congrArg State.dict (s.poolFirst_eq l) :)
@[simp] theorem State.poolFirst_prot (l : List PoolJob) : (s.poolFirst l).prot = s.prot :=
  (congrArg State.prot (s.poolFirst_eq l) :)
@[simp] theorem State.poolFirst_ctxs (l : List PoolJob) : (s.poolFirst l).ctxs = s.ctxs :=
  (congrArg State.ctxs (s.poolFirst_eq l) :)
@[simp] theorem State.poolFirst_sched (l : List PoolJob) : (s.poolFirst l).sched = s.sched :=
  (congrArg State.sched (s.poolFirst_eq l) :)
@[simp] theorem State.poolFirst_ports (l : List PoolJob) : (s.poolFirst l).ports = s.ports :=
  (congrArg State.ports (s.poolFirst_eq l) :)
@[simp] theorem State.poolFirst_jrn (l : List PoolJob) : (s.poolFirst l).jrn = s.jrn :=
  (congrArg State.jrn (s.poolFirst_eq l) :)
@[simp] theorem State.poolFirst_twin (l : List PoolJob) : (s.poolFirst l).twin = s.twin :=
  (congrArg State.twin (s.poolFirst_eq l) :)
@[simp] theorem State.poolFirst_fab (l : List PoolJob) : (s.poolFirst l).fab = s.fab :=
  (congrArg State.fab (s.poolFirst_eq l) :)
@[simp] theorem State.poolFirst_islands (l : List PoolJob) : (s.poolFirst l).islands = s.islands :=
  (congrArg State.islands (s.poolFirst_eq l) :)
@[simp] theorem State.poolFirst_stash (l : List PoolJob) : (s.poolFirst l).stash = s.stash :=
  (congrArg State.stash (s.poolFirst_eq l) :)
@[simp] theorem State.poolFirst_scrub (l : List PoolJob) : (s.poolFirst l).scrub = s.scrub :=
  (congrArg State.scrub (s.poolFirst_eq l) :)
@[simp] theorem State.poolFirst_tapReset (l : List PoolJob) : (s.poolFirst l).tapReset = s.tapReset :=
  (congrArg State.tapReset (s.poolFirst_eq l) :)
theorem State.dropJobs_eq (f : PoolJob → Bool) : s.dropJobs f =
    { s with pool := (s.dropJobs f).pool } := by
  unfold State.dropJobs; split <;> rfl
@[simp] theorem State.dropJobs_pending (f : PoolJob → Bool) : (s.dropJobs f).pending = s.pending :=
  (congrArg State.pending (s.dropJobs_eq f) :)
@[simp] theorem State.dropJobs_free (f : PoolJob → Bool) : (s.dropJobs f).free = s.free :=
  (congrArg State.free (s.dropJobs_eq f) :)
@[simp] theorem State.dropJobs_straps (f : PoolJob → Bool) : (s.dropJobs f).straps = s.straps :=
  (congrArg State.straps (s.dropJobs_eq f) :)
@[simp] theorem State.dropJobs_mem (f : PoolJob → Bool) : (s.dropJobs f).mem = s.mem :=
  (congrArg State.mem (s.dropJobs_eq f) :)
@[simp] theorem State.dropJobs_ctl (f : PoolJob → Bool) : (s.dropJobs f).ctl = s.ctl :=
  (congrArg State.ctl (s.dropJobs_eq f) :)
@[simp] theorem State.dropJobs_dict (f : PoolJob → Bool) : (s.dropJobs f).dict = s.dict :=
  (congrArg State.dict (s.dropJobs_eq f) :)
@[simp] theorem State.dropJobs_prot (f : PoolJob → Bool) : (s.dropJobs f).prot = s.prot :=
  (congrArg State.prot (s.dropJobs_eq f) :)
@[simp] theorem State.dropJobs_ctxs (f : PoolJob → Bool) : (s.dropJobs f).ctxs = s.ctxs :=
  (congrArg State.ctxs (s.dropJobs_eq f) :)
@[simp] theorem State.dropJobs_sched (f : PoolJob → Bool) : (s.dropJobs f).sched = s.sched :=
  (congrArg State.sched (s.dropJobs_eq f) :)
@[simp] theorem State.dropJobs_ports (f : PoolJob → Bool) : (s.dropJobs f).ports = s.ports :=
  (congrArg State.ports (s.dropJobs_eq f) :)
@[simp] theorem State.dropJobs_jrn (f : PoolJob → Bool) : (s.dropJobs f).jrn = s.jrn :=
  (congrArg State.jrn (s.dropJobs_eq f) :)
@[simp] theorem State.dropJobs_twin (f : PoolJob → Bool) : (s.dropJobs f).twin = s.twin :=
  (congrArg State.twin (s.dropJobs_eq f) :)
@[simp] theorem State.dropJobs_fab (f : PoolJob → Bool) : (s.dropJobs f).fab = s.fab :=
  (congrArg State.fab (s.dropJobs_eq f) :)
@[simp] theorem State.dropJobs_islands (f : PoolJob → Bool) : (s.dropJobs f).islands = s.islands :=
  (congrArg State.islands (s.dropJobs_eq f) :)
@[simp] theorem State.dropJobs_stash (f : PoolJob → Bool) : (s.dropJobs f).stash = s.stash :=
  (congrArg State.stash (s.dropJobs_eq f) :)
@[simp] theorem State.dropJobs_scrub (f : PoolJob → Bool) : (s.dropJobs f).scrub = s.scrub :=
  (congrArg State.scrub (s.dropJobs_eq f) :)
@[simp] theorem State.dropJobs_tapReset (f : PoolJob → Bool) : (s.dropJobs f).tapReset = s.tapReset :=
  (congrArg State.tapReset (s.dropJobs_eq f) :)
theorem State.writeDesc_eq (g : Nat) : s.writeDesc g =
    { s with ports := (s.writeDesc g).ports, pool := (s.writeDesc g).pool, stash := (s.writeDesc g).stash } := by
  exact s.poolJobs_eq _
@[simp] theorem State.writeDesc_pending (g : Nat) : (s.writeDesc g).pending = s.pending :=
  (congrArg State.pending (s.writeDesc_eq g) :)
@[simp] theorem State.writeDesc_free (g : Nat) : (s.writeDesc g).free = s.free :=
  (congrArg State.free (s.writeDesc_eq g) :)
@[simp] theorem State.writeDesc_straps (g : Nat) : (s.writeDesc g).straps = s.straps :=
  (congrArg State.straps (s.writeDesc_eq g) :)
@[simp] theorem State.writeDesc_mem (g : Nat) : (s.writeDesc g).mem = s.mem :=
  (congrArg State.mem (s.writeDesc_eq g) :)
@[simp] theorem State.writeDesc_ctl (g : Nat) : (s.writeDesc g).ctl = s.ctl :=
  (congrArg State.ctl (s.writeDesc_eq g) :)
@[simp] theorem State.writeDesc_dict (g : Nat) : (s.writeDesc g).dict = s.dict :=
  (congrArg State.dict (s.writeDesc_eq g) :)
@[simp] theorem State.writeDesc_prot (g : Nat) : (s.writeDesc g).prot = s.prot :=
  (congrArg State.prot (s.writeDesc_eq g) :)
@[simp] theorem State.writeDesc_ctxs (g : Nat) : (s.writeDesc g).ctxs = s.ctxs :=
  (congrArg State.ctxs (s.writeDesc_eq g) :)
@[simp] theorem State.writeDesc_sched (g : Nat) : (s.writeDesc g).sched = s.sched :=
  (congrArg State.sched (s.writeDesc_eq g) :)
@[simp] theorem State.writeDesc_jrn (g : Nat) : (s.writeDesc g).jrn = s.jrn :=
  (congrArg State.jrn (s.writeDesc_eq g) :)
@[simp] theorem State.writeDesc_twin (g : Nat) : (s.writeDesc g).twin = s.twin :=
  (congrArg State.twin (s.writeDesc_eq g) :)
@[simp] theorem State.writeDesc_fab (g : Nat) : (s.writeDesc g).fab = s.fab :=
  (congrArg State.fab (s.writeDesc_eq g) :)
@[simp] theorem State.writeDesc_islands (g : Nat) : (s.writeDesc g).islands = s.islands :=
  (congrArg State.islands (s.writeDesc_eq g) :)
@[simp] theorem State.writeDesc_scrub (g : Nat) : (s.writeDesc g).scrub = s.scrub :=
  (congrArg State.scrub (s.writeDesc_eq g) :)
@[simp] theorem State.writeDesc_tapReset (g : Nat) : (s.writeDesc g).tapReset = s.tapReset :=
  (congrArg State.tapReset (s.writeDesc_eq g) :)
theorem State.clearMark_eq (k : Nat) : s.clearMark k =
    { s with ports := (s.clearMark k).ports, pool := (s.clearMark k).pool, stash := (s.clearMark k).stash } := by
  unfold State.clearMark; split
  · rfl
  · exact s.poolJobs_eq _
@[simp] theorem State.clearMark_pending (k : Nat) : (s.clearMark k).pending = s.pending :=
  (congrArg State.pending (s.clearMark_eq k) :)
@[simp] theorem State.clearMark_free (k : Nat) : (s.clearMark k).free = s.free :=
  (congrArg State.free (s.clearMark_eq k) :)
@[simp] theorem State.clearMark_straps (k : Nat) : (s.clearMark k).straps = s.straps :=
  (congrArg State.straps (s.clearMark_eq k) :)
@[simp] theorem State.clearMark_mem (k : Nat) : (s.clearMark k).mem = s.mem :=
  (congrArg State.mem (s.clearMark_eq k) :)
@[simp] theorem State.clearMark_ctl (k : Nat) : (s.clearMark k).ctl = s.ctl :=
  (congrArg State.ctl (s.clearMark_eq k) :)
@[simp] theorem State.clearMark_dict (k : Nat) : (s.clearMark k).dict = s.dict :=
  (congrArg State.dict (s.clearMark_eq k) :)
@[simp] theorem State.clearMark_prot (k : Nat) : (s.clearMark k).prot = s.prot :=
  (congrArg State.prot (s.clearMark_eq k) :)
@[simp] theorem State.clearMark_ctxs (k : Nat) : (s.clearMark k).ctxs = s.ctxs :=
  (congrArg State.ctxs (s.clearMark_eq k) :)
@[simp] theorem State.clearMark_sched (k : Nat) : (s.clearMark k).sched = s.sched :=
  (congrArg State.sched (s.clearMark_eq k) :)
@[simp] theorem State.clearMark_jrn (k : Nat) : (s.clearMark k).jrn = s.jrn :=
  (congrArg State.jrn (s.clearMark_eq k) :)
@[simp] theorem State.clearMark_twin (k : Nat) : (s.clearMark k).twin = s.twin :=
  (congrArg State.twin (s.clearMark_eq k) :)
@[simp] theorem State.clearMark_fab (k : Nat) : (s.clearMark k).fab = s.fab :=
  (congrArg State.fab (s.clearMark_eq k) :)
@[simp] theorem State.clearMark_islands (k : Nat) : (s.clearMark k).islands = s.islands :=
  (congrArg State.islands (s.clearMark_eq k) :)
@[simp] theorem State.clearMark_scrub (k : Nat) : (s.clearMark k).scrub = s.scrub :=
  (congrArg State.scrub (s.clearMark_eq k) :)
@[simp] theorem State.clearMark_tapReset (k : Nat) : (s.clearMark k).tapReset = s.tapReset :=
  (congrArg State.tapReset (s.clearMark_eq k) :)
theorem State.poolRefill_eq (g : Nat) : s.poolRefill g =
    { s with ports := (s.poolRefill g).ports, pool := (s.poolRefill g).pool, stash := (s.poolRefill g).stash } := by
  unfold State.poolRefill; dsimp only; split
  · rfl
  · split
    · exact s.poolJobs_eq _
    · rfl
@[simp] theorem State.poolRefill_pending (g : Nat) : (s.poolRefill g).pending = s.pending :=
  (congrArg State.pending (s.poolRefill_eq g) :)
@[simp] theorem State.poolRefill_free (g : Nat) : (s.poolRefill g).free = s.free :=
  (congrArg State.free (s.poolRefill_eq g) :)
@[simp] theorem State.poolRefill_straps (g : Nat) : (s.poolRefill g).straps = s.straps :=
  (congrArg State.straps (s.poolRefill_eq g) :)
@[simp] theorem State.poolRefill_mem (g : Nat) : (s.poolRefill g).mem = s.mem :=
  (congrArg State.mem (s.poolRefill_eq g) :)
@[simp] theorem State.poolRefill_ctl (g : Nat) : (s.poolRefill g).ctl = s.ctl :=
  (congrArg State.ctl (s.poolRefill_eq g) :)
@[simp] theorem State.poolRefill_dict (g : Nat) : (s.poolRefill g).dict = s.dict :=
  (congrArg State.dict (s.poolRefill_eq g) :)
@[simp] theorem State.poolRefill_prot (g : Nat) : (s.poolRefill g).prot = s.prot :=
  (congrArg State.prot (s.poolRefill_eq g) :)
@[simp] theorem State.poolRefill_ctxs (g : Nat) : (s.poolRefill g).ctxs = s.ctxs :=
  (congrArg State.ctxs (s.poolRefill_eq g) :)
@[simp] theorem State.poolRefill_sched (g : Nat) : (s.poolRefill g).sched = s.sched :=
  (congrArg State.sched (s.poolRefill_eq g) :)
@[simp] theorem State.poolRefill_jrn (g : Nat) : (s.poolRefill g).jrn = s.jrn :=
  (congrArg State.jrn (s.poolRefill_eq g) :)
@[simp] theorem State.poolRefill_twin (g : Nat) : (s.poolRefill g).twin = s.twin :=
  (congrArg State.twin (s.poolRefill_eq g) :)
@[simp] theorem State.poolRefill_fab (g : Nat) : (s.poolRefill g).fab = s.fab :=
  (congrArg State.fab (s.poolRefill_eq g) :)
@[simp] theorem State.poolRefill_islands (g : Nat) : (s.poolRefill g).islands = s.islands :=
  (congrArg State.islands (s.poolRefill_eq g) :)
@[simp] theorem State.poolRefill_scrub (g : Nat) : (s.poolRefill g).scrub = s.scrub :=
  (congrArg State.scrub (s.poolRefill_eq g) :)
@[simp] theorem State.poolRefill_tapReset (g : Nat) : (s.poolRefill g).tapReset = s.tapReset :=
  (congrArg State.tapReset (s.poolRefill_eq g) :)
theorem State.freeCell_eq (k : Nat) : s.freeCell k =
    { s with free := (s.freeCell k).free, ports := (s.freeCell k).ports, pool := (s.freeCell k).pool, stash := (s.freeCell k).stash } := by
  unfold State.freeCell State.nextFree; dsimp only; rw [State.poolJobs_eq]
@[simp] theorem State.freeCell_pending (k : Nat) : (s.freeCell k).pending = s.pending :=
  (congrArg State.pending (s.freeCell_eq k) :)
@[simp] theorem State.freeCell_straps (k : Nat) : (s.freeCell k).straps = s.straps :=
  (congrArg State.straps (s.freeCell_eq k) :)
@[simp] theorem State.freeCell_mem (k : Nat) : (s.freeCell k).mem = s.mem :=
  (congrArg State.mem (s.freeCell_eq k) :)
@[simp] theorem State.freeCell_ctl (k : Nat) : (s.freeCell k).ctl = s.ctl :=
  (congrArg State.ctl (s.freeCell_eq k) :)
@[simp] theorem State.freeCell_dict (k : Nat) : (s.freeCell k).dict = s.dict :=
  (congrArg State.dict (s.freeCell_eq k) :)
@[simp] theorem State.freeCell_prot (k : Nat) : (s.freeCell k).prot = s.prot :=
  (congrArg State.prot (s.freeCell_eq k) :)
@[simp] theorem State.freeCell_ctxs (k : Nat) : (s.freeCell k).ctxs = s.ctxs :=
  (congrArg State.ctxs (s.freeCell_eq k) :)
@[simp] theorem State.freeCell_sched (k : Nat) : (s.freeCell k).sched = s.sched :=
  (congrArg State.sched (s.freeCell_eq k) :)
@[simp] theorem State.freeCell_jrn (k : Nat) : (s.freeCell k).jrn = s.jrn :=
  (congrArg State.jrn (s.freeCell_eq k) :)
@[simp] theorem State.freeCell_twin (k : Nat) : (s.freeCell k).twin = s.twin :=
  (congrArg State.twin (s.freeCell_eq k) :)
@[simp] theorem State.freeCell_fab (k : Nat) : (s.freeCell k).fab = s.fab :=
  (congrArg State.fab (s.freeCell_eq k) :)
@[simp] theorem State.freeCell_islands (k : Nat) : (s.freeCell k).islands = s.islands :=
  (congrArg State.islands (s.freeCell_eq k) :)
@[simp] theorem State.freeCell_scrub (k : Nat) : (s.freeCell k).scrub = s.scrub :=
  (congrArg State.scrub (s.freeCell_eq k) :)
@[simp] theorem State.freeCell_tapReset (k : Nat) : (s.freeCell k).tapReset = s.tapReset :=
  (congrArg State.tapReset (s.freeCell_eq k) :)
theorem State.poolLow_eq : s.poolLow =
    { s with ctl := (s.poolLow).ctl, pool := (s.poolLow).pool } := by
  unfold State.poolLow; dsimp only; rw [State.raiseIf_eq, State.raiseIf_eq]
@[simp] theorem State.poolLow_pending : (s.poolLow).pending = s.pending :=
  (congrArg State.pending (s.poolLow_eq) :)
@[simp] theorem State.poolLow_free : (s.poolLow).free = s.free :=
  (congrArg State.free (s.poolLow_eq) :)
@[simp] theorem State.poolLow_straps : (s.poolLow).straps = s.straps :=
  (congrArg State.straps (s.poolLow_eq) :)
@[simp] theorem State.poolLow_mem : (s.poolLow).mem = s.mem :=
  (congrArg State.mem (s.poolLow_eq) :)
@[simp] theorem State.poolLow_dict : (s.poolLow).dict = s.dict :=
  (congrArg State.dict (s.poolLow_eq) :)
@[simp] theorem State.poolLow_prot : (s.poolLow).prot = s.prot :=
  (congrArg State.prot (s.poolLow_eq) :)
@[simp] theorem State.poolLow_ctxs : (s.poolLow).ctxs = s.ctxs :=
  (congrArg State.ctxs (s.poolLow_eq) :)
@[simp] theorem State.poolLow_sched : (s.poolLow).sched = s.sched :=
  (congrArg State.sched (s.poolLow_eq) :)
@[simp] theorem State.poolLow_ports : (s.poolLow).ports = s.ports :=
  (congrArg State.ports (s.poolLow_eq) :)
@[simp] theorem State.poolLow_jrn : (s.poolLow).jrn = s.jrn :=
  (congrArg State.jrn (s.poolLow_eq) :)
@[simp] theorem State.poolLow_twin : (s.poolLow).twin = s.twin :=
  (congrArg State.twin (s.poolLow_eq) :)
@[simp] theorem State.poolLow_fab : (s.poolLow).fab = s.fab :=
  (congrArg State.fab (s.poolLow_eq) :)
@[simp] theorem State.poolLow_islands : (s.poolLow).islands = s.islands :=
  (congrArg State.islands (s.poolLow_eq) :)
@[simp] theorem State.poolLow_stash : (s.poolLow).stash = s.stash :=
  (congrArg State.stash (s.poolLow_eq) :)
@[simp] theorem State.poolLow_scrub : (s.poolLow).scrub = s.scrub :=
  (congrArg State.scrub (s.poolLow_eq) :)
@[simp] theorem State.poolLow_tapReset : (s.poolLow).tapReset = s.tapReset :=
  (congrArg State.tapReset (s.poolLow_eq) :)

end Sys2Proof.Machine
end

