-- ==== Sys2Proof/Laws/Quiet.lean ====
section
/-! SUPPORT. What the bookkeeping of SCHED, the lanes, POOL and the fabric's requests leaves as it is: memory, the dictionary, the
protection unit, the islands, the mode, the identifiers and routes, and of the links all but the frames that wait to be sent. -/
namespace Sys2Proof.Machine

/-- t has what s has, but for contexts, SCHED, ports, POOL, JRN's records, stash ports, the count of free values, events, and frames
and requests that go out. -/
structure Quiet (s t : State) : Prop where
  pending : t.pending = s.pending
  straps : t.straps = s.straps
  mem : t.mem = s.mem
  dict : t.dict = s.dict
  prot : t.prot = s.prot
  twin : t.twin = s.twin
  islands : t.islands = s.islands
  scrub : t.scrub = s.scrub
  tapReset : t.tapReset = s.tapReset
  ctl : t.ctl = { s.ctl with
    eventCount := t.ctl.eventCount, notifyPending := t.ctl.notifyPending, notifyDue := t.ctl.notifyDue
    posts := t.ctl.posts, owed := t.ctl.owed }
  fab : t.fab = { s.fab with links := t.fab.links, remotes := t.fab.remotes, nextTag := t.fab.nextTag }
  link : ∀ l, t.link l = { s.link l with tx := (t.link l).tx }

theorem Quiet.refl (s : State) : Quiet s s := ⟨rfl, rfl, rfl, rfl, rfl, rfl, rfl, rfl, rfl, rfl, rfl, fun _ => rfl⟩
theorem Quiet.trans {s t u : State} (h : Quiet s t) (k : Quiet t u) : Quiet s u := by
  refine ⟨k.1.trans h.1, k.2.trans h.2, k.3.trans h.3, k.4.trans h.4, k.5.trans h.5, k.6.trans h.6, k.7.trans h.7, k.8.trans h.8,
    k.9.trans h.9, ?_, ?_, fun l => ?_⟩
  · rw [k.ctl, h.ctl]
  · rw [k.fab, h.fab]
  · rw [k.link l, h.link l]
/-- An update outside what Quiet keeps. -/
theorem Quiet.of_eq {s t : State} (h1 : t.pending = s.pending) (h2 : t.straps = s.straps) (h3 : t.mem = s.mem)
    (h4 : t.dict = s.dict) (h5 : t.prot = s.prot) (h6 : t.twin = s.twin) (h7 : t.islands = s.islands) (h8 : t.scrub = s.scrub)
    (h9 : t.tapReset = s.tapReset) (h10 : t.ctl = s.ctl) (h11 : t.fab = s.fab) : Quiet s t :=
  ⟨h1, h2, h3, h4, h5, h6, h7, h8, h9, by rw [h10], by rw [h11], fun l => by rw [State.link_congr h11]⟩
theorem Quiet.foldl {α : Type} {s t : State} {f : State → α → State} (hf : ∀ u a, Quiet s u → Quiet s (f u a)) (l : List α)
    (h : Quiet s t) : Quiet s (l.foldl f t) := by
  induction l generalizing t with
  | nil => exact h
  | cons a l ih => exact ih (hf _ _ h)

variable {s t : State}

theorem Quiet.ite {p : Prop} [Decidable p] {u : State} (h : Quiet s t) (k : Quiet s u) : Quiet s (if p then t else u) := by
  split
  · exact h
  · exact k

/-! ## Ops -/

theorem Quiet.setCtx (h : Quiet s t) (c : Nat) (x : Ctx) : Quiet s (t.setCtx c x) :=
  h.trans (.of_eq rfl rfl rfl rfl rfl rfl rfl rfl rfl rfl rfl)
theorem Quiet.modCtx (h : Quiet s t) (c : Nat) (f : Ctx → Ctx) : Quiet s (t.modCtx c f) := h.setCtx _ _
theorem Quiet.modItem (h : Quiet s t) (c : Nat) (f : Item → Item) : Quiet s (t.modItem c f) := h.modCtx _ _
theorem Quiet.setPort (h : Quiet s t) (p : Nat) (x : Port) : Quiet s (t.setPort p x) :=
  h.trans (.of_eq rfl rfl rfl rfl rfl rfl rfl rfl rfl rfl rfl)
theorem Quiet.setGalley (h : Quiet s t) (g : Nat) (x : Galley) : Quiet s (t.setGalley g x) :=
  h.trans (.of_eq rfl rfl rfl rfl rfl rfl rfl rfl rfl rfl rfl)
theorem Quiet.setSlot (h : Quiet s t) (k : Nat) (x : Slot) : Quiet s (t.setSlot k x) :=
  h.trans (.of_eq rfl rfl rfl rfl rfl rfl rfl rfl rfl rfl rfl)
theorem Quiet.setStash (h : Quiet s t) (n : Nat) (x : StashPort) : Quiet s (t.setStash n x) :=
  h.trans (.of_eq rfl rfl rfl rfl rfl rfl rfl rfl rfl rfl rfl)
theorem Quiet.setSched (h : Quiet s t) (x : Sched) : Quiet s { t with sched := x } :=
  h.trans (.of_eq rfl rfl rfl rfl rfl rfl rfl rfl rfl rfl rfl)
theorem Quiet.setPool (h : Quiet s t) (x : Pool) : Quiet s { t with pool := x } :=
  h.trans (.of_eq rfl rfl rfl rfl rfl rfl rfl rfl rfl rfl rfl)
theorem Quiet.setJrn (h : Quiet s t) (x : Journal) : Quiet s { t with jrn := x } :=
  h.trans (.of_eq rfl rfl rfl rfl rfl rfl rfl rfl rfl rfl rfl)
theorem Quiet.nextFree (h : Quiet s t) : Quiet s t.nextFree :=
  h.trans (.of_eq rfl rfl rfl rfl rfl rfl rfl rfl rfl rfl rfl)
theorem Quiet.setRemotes (h : Quiet s t) (x : List Remote) : Quiet s { t with fab := { t.fab with remotes := x } } :=
  h.trans ⟨rfl, rfl, rfl, rfl, rfl, rfl, rfl, rfl, rfl, rfl, rfl, fun _ => rfl⟩
theorem Quiet.post (h : Quiet s t) (i w : Nat) : Quiet s (t.post i w) :=
  h.trans ⟨rfl, rfl, rfl, rfl, rfl, rfl, rfl, rfl, rfl, rfl, rfl, fun _ => rfl⟩
theorem Quiet.postEvent (h : Quiet s t) (i w : Nat) : Quiet s (t.postEvent i w) := by
  unfold State.postEvent; dsimp only
  exact Quiet.ite (h.trans ⟨rfl, rfl, rfl, rfl, rfl, rfl, rfl, rfl, rfl, rfl, rfl, fun _ => rfl⟩) (h.post _ _)
theorem Quiet.raise (h : Quiet s t) (e : Event) : Quiet s (t.raise e) := by
  refine h.trans ?_
  dsimp only [State.raise]
  refine Quiet.ite (Quiet.postEvent ?_ _ _) ?_ <;> exact ⟨rfl, rfl, rfl, rfl, rfl, rfl, rfl, rfl, rfl, rfl, rfl, fun _ => rfl⟩
theorem Quiet.raiseIf (h : Quiet s t) (b : Bool) (e : Event) : Quiet s (t.raiseIf b e) := by
  unfold State.raiseIf; split
  · exact h.raise e
  · exact h
theorem Quiet.present (h : Quiet s t) (p : Nat) (w : Bool) (r : PortReq) : Quiet s (t.present p w r) := h.setPort _ _
theorem Quiet.wakeStash (h : Quiet s t) (n : Nat) : Quiet s (t.wakeStash n) := by
  unfold State.wakeStash; exact h.ite (h.setStash _ _)
theorem Quiet.giveTiles (h : Quiet s t) (n : Nat) (r : PortReq) (a o : Nat) (bs : List Byte) : Quiet s (t.giveTiles n r a o bs) :=
  Quiet.foldl (fun _ _ hu => hu.setStash _ _) _ (h.wakeStash n)
theorem Quiet.countFallbacks (h : Quiet s t) (l : List Nat) : Quiet s (t.countFallbacks l) :=
  Quiet.foldl (fun _ _ hu => hu.setStash _ _) _ h
theorem Quiet.presentAt (h : Quiet s t) (p : Nat) (r : PortReq) (a : Nat) (bs : List Byte) : Quiet s (t.presentAt p r a bs) := by
  unfold State.presentAt; split
  · exact h.giveTiles _ _ _ _ _
  · exact (h.countFallbacks _).present _ _ _
theorem Quiet.presentBeat (h : Quiet s t) (r : PortReq) (a : Nat) (bs : List Byte) : Quiet s (t.presentBeat r a bs) := by
  unfold State.presentBeat; split
  · exact h.presentAt _ _ _ _
  · exact h
theorem Quiet.presentWrite (h : Quiet s t) (o : Owner) (q c a : Nat) (bs : List Byte) : Quiet s (t.presentWrite o q c a bs) :=
  h.presentBeat _ _ _
theorem Quiet.presentRead (h : Quiet s t) (o : Owner) (q c a : Nat) : Quiet s (t.presentRead o q c a) := by
  unfold State.presentRead; split
  · exact h.present _ _ _
  · exact h
theorem Quiet.withdraw (h : Quiet s t) (f : PortReq → Bool) : Quiet s (t.withdraw f) :=
  h.trans (.of_eq rfl rfl rfl rfl rfl rfl rfl rfl rfl rfl rfl)
theorem Quiet.showResponse (h : Quiet s t) (r : DbResponse) : Quiet s (t.showResponse r) := h.setSched _
theorem Quiet.respondBell (h : Quiet s t) (c i r o : Nat) : Quiet s (t.respondBell c i r o) := h.showResponse _
theorem Quiet.queueFrame (h : Quiet s t) (l : Nat) (f : Frame) : Quiet s (t.queueFrame l f) := by
  refine h.trans ⟨rfl, rfl, rfl, rfl, rfl, rfl, rfl, rfl, rfl, rfl, rfl, fun m => ?_⟩
  simp only [State.queueFrame, State.link_setLink]
  split
  · next e => subst e; rfl
  · rfl
theorem Quiet.sendFrame (h : Quiet s t) (f : Frame) : Quiet s (t.sendFrame f) := by
  unfold State.sendFrame; split
  · exact h.queueFrame _ _
  · exact h
theorem Quiet.issueLocal (h : Quiet s t) (r : Record) : Quiet s (t.issueLocal r) := (h.setJrn _).presentWrite _ _ _ _ _
theorem Quiet.issueRecord (h : Quiet s t) (r : Record) : Quiet s (t.issueRecord r) := by
  unfold State.issueRecord; dsimp only; split
  · exact (h.issueLocal r).sendFrame _
  · exact h.issueLocal r
theorem Quiet.writeRecord (h : Quiet s t) (r : Record) : Quiet s (t.writeRecord r) := h.issueRecord _
theorem Quiet.journalFull (h : Quiet s t) (k : RecKind) : Quiet s (t.journalFull k) := by
  unfold State.journalFull; split
  · exact h
  · exact (h.setJrn _).raiseIf _ _
theorem Quiet.endWaits (h : Quiet s t) : Quiet s t.endWaits := h.setJrn _
theorem Quiet.upkeepNext (h : Quiet s t) : Quiet s t.upkeepNext := by
  unfold State.upkeepNext; split
  · exact h
  · split
    · exact h
    · exact (h.setJrn _).presentWrite _ _ _ _ _
theorem Quiet.upkeepWrite (h : Quiet s t) (a : Nat) (bs : List Byte) : Quiet s (t.upkeepWrite a bs) := (h.setJrn _).upkeepNext
theorem Quiet.upkeepDone (h : Quiet s t) : Quiet s t.upkeepDone := by
  unfold State.upkeepDone; dsimp only; split
  · exact h.upkeepNext
  · exact (h.upkeepNext.setJrn _).endWaits
theorem Quiet.writeAnchor (h : Quiet s t) : Quiet s t.writeAnchor := h.upkeepWrite _ _

/-! ## Channel -/

theorem Quiet.claim (h : Quiet s t) (c : Nat) : Quiet s (t.claim c) := by
  unfold State.claim; split
  · exact h
  · exact (h.setSched _).modItem _ _
theorem Quiet.fail (h : Quiet s t) (c : Nat) (f : FaultRec) : Quiet s (t.fail c f) := h.modCtx _ _
theorem Quiet.halt (h : Quiet s t) (c : Nat) (e : Status × Nat) : Quiet s (t.halt c e) := h.fail _ _
theorem Quiet.stall (h : Quiet s t) (c : Nat) (w : WaitOn) : Quiet s (t.stall c w) := h.modCtx _ _
theorem Quiet.unstall (h : Quiet s t) (c : Nat) : Quiet s (t.unstall c) := h.modCtx _ _
theorem Quiet.readBeats (h : Quiet s t) (c : Nat) (bs : List Nat) : Quiet s (t.readBeats c bs) :=
  Quiet.foldl (fun _ _ hu => hu.presentRead _ _ _ _) _ h
theorem Quiet.fetchBytes (h : Quiet s t) (c a n : Nat) (x : Fetch) : Quiet s (t.fetchBytes c a n x) := by
  unfold State.fetchBytes; dsimp only
  repeat' split
  all_goals first
    | exact h.fail _ _
    | exact h.modItem _ _
    | exact h.stall _ _
    | exact (h.readBeats _ _).modItem _ _
theorem Quiet.fetchAhead (h : Quiet s t) (c : Nat) : Quiet s (t.fetchAhead c) := by
  unfold State.fetchAhead; dsimp only; split
  · exact h
  · split
    · exact h
    · exact h.readBeats _ _
theorem Quiet.askFetch (h : Quiet s t) (c : Nat) : Quiet s (t.askFetch c) := by
  unfold State.askFetch; dsimp only; split
  · exact h
  · refine h.ite (Quiet.ite ?_ (Quiet.ite ?_ ?_))
    · exact h.modItem _ _
    · exact ((h.modItem _ _).fetchBytes _ _ _ _).fetchAhead _
    · exact (h.fetchBytes _ _ _ _).fetchAhead _
theorem Quiet.beatFetched (h : Quiet s t) (c b : Nat) : Quiet s (t.beatFetched c b) := by
  unfold State.beatFetched; dsimp only; split
  · exact h
  · split
    · exact (h.modItem _ _).askFetch _
    · exact h.modItem _ _
theorem Quiet.recordFault (h : Quiet s t) (c : Nat) (f : FaultRec) (p q : Nat) : Quiet s (t.recordFault c f p q) := h.modCtx _ _
theorem Quiet.answerBell (h : Quiet s t) (c : Nat) (b : Bell) (o : Nat) : Quiet s (t.answerBell c b o) := h.respondBell _ _ _ _
theorem Quiet.writeWord (h : Quiet s t) (c : Nat) : Quiet s (t.writeWord c) := by
  unfold State.writeWord; split
  · exact h.modCtx _ _
  · exact (h.modCtx _ _).presentWrite _ _ _ _ _
theorem Quiet.cutBells (h : Quiet s t) (c o : Nat) (p : BitVec 32) : Quiet s (t.cutBells c o p) := by
  unfold State.cutBells; dsimp only; split
  · exact ((Quiet.foldl (fun _ _ hu => hu.answerBell _ _ _) _ h).modCtx _ _).writeWord _
  · exact (Quiet.foldl (fun _ _ hu => hu.answerBell _ _ _) _ h).modCtx _ _
theorem Quiet.haltHeader (h : Quiet s t) (c : Nat) (f : FaultRec) : Quiet s (t.haltHeader c f) := by
  unfold State.haltHeader; dsimp only
  exact (((h.cutBells _ _ _).recordFault _ _ _ _).modCtx _ _).raise _
theorem Quiet.askHeader (h : Quiet s t) (c : Nat) : Quiet s (t.askHeader c) := by
  unfold State.askHeader; dsimp only
  repeat' split
  all_goals first
    | exact h
    | exact h.modCtx _ _
    | exact h.haltHeader _ _
    | exact Quiet.foldl (fun _ _ hu => hu.presentRead _ _ _ _) _ (h.modCtx _ _)
theorem Quiet.haltBadOp (h : Quiet s t) (c : Nat) (it : Item) : Quiet s (t.haltBadOp c it) := h.nextFree.halt _ _
theorem Quiet.finishOp (h : Quiet s t) (c : Nat) : Quiet s (t.finishOp c) := h.modItem _ _
theorem Quiet.credit (h : Quiet s t) (c d : Nat) (m : Bool) : Quiet s (t.credit c d m) := (h.modItem _ _).modCtx _ _
theorem Quiet.beginNext (h : Quiet s t) (c : Nat) : Quiet s (t.beginNext c) := by
  unfold State.beginNext; dsimp only; split
  · exact h.modCtx _ _
  · split
    · exact ((h.modCtx _ _).recordFault _ _ _ _).presentWrite _ _ _ _ _
    · exact (h.modCtx _ _).askFetch _

/-! ## Bursts and what a lane carries -/

theorem Quiet.request (h : Quiet s t) (o : Owner) (f : Frame) (a n d x : Nat) : Quiet s (t.request o f a n d x) := by
  unfold State.request; dsimp only
  apply Quiet.sendFrame
  exact h.trans ⟨rfl, rfl, rfl, rfl, rfl, rfl, rfl, rfl, rfl, rfl, rfl, fun _ => rfl⟩
theorem Quiet.presentReads (h : Quiet s t) (k : Carrier) (n : Nat) (d : Side) (lo m : Nat) : Quiet s (t.presentReads k n d lo m) := by
  unfold State.presentReads; dsimp only
  refine Quiet.foldl (fun u p hu => ?_) _ h
  split
  · exact Quiet.foldl (fun _ _ hv => hv.present _ _ _) _ hu
  · exact Quiet.foldl (fun _ _ hv => Quiet.foldl (fun _ _ hw => hw.request _ _ _ _ _ _) _ hv) _ hu
  · exact hu
theorem Quiet.presentWrites (h : Quiet s t) (k : Carrier) (d : Side) (lo : Nat) (b : List Byte) :
    Quiet s (t.presentWrites k d lo b) := by
  unfold State.presentWrites; dsimp only
  refine Quiet.foldl (fun u p hu => ?_) _ (h.countFallbacks _)
  split
  · exact Quiet.foldl (fun _ _ hv => hv.present _ _ _) _ hu
  · exact Quiet.foldl (fun _ _ hv => Quiet.foldl (fun _ _ hw => hw.request _ _ _ _ _ _) _ hv) _ hu
  · exact Quiet.foldl (fun _ _ hv => hv.giveTiles _ _ _ _ _) _ hu
  · exact hu
theorem Quiet.issueReads (h : Quiet s t) (k : Carrier) (op : Op) (lo hi : Nat) : Quiet s (t.issueReads k op lo hi) := by
  have h1 : Quiet s (op.reads.foldl (fun t r => t.presentReads k r.1 r.2 lo (hi - lo)) t) :=
    Quiet.foldl (fun _ _ hu => hu.presentReads _ _ _ _ _) _ h
  unfold State.issueReads; dsimp only
  split
  · exact h1.presentReads _ _ _ _ _
  · exact h1
theorem Quiet.modRun (h : Quiet s t) (c : Nat) (f : OpRun → OpRun) : Quiet s (t.modRun c f) := by
  unfold State.modRun; exact Quiet.ite (h.setSlot _ _) (h.modItem _ _)
theorem Quiet.failOp (h : Quiet s t) (c : Nat) (f : FaultRec) : Quiet s (t.failOp c f) := by
  unfold State.failOp; exact Quiet.ite (h.setSlot _ _) (h.fail _ _)
theorem Quiet.stallOp (h : Quiet s t) (c : Nat) (w : WaitOn) : Quiet s (t.stallOp c w) := by
  unfold State.stallOp; exact Quiet.ite (h.setSlot _ _) (h.stall _ _)
theorem Quiet.meet (h : Quiet s t) (c : Nat) (o : Obstacle) : Quiet s (t.meet c o) := by
  unfold State.meet; split
  · exact h.failOp _ _
  · exact h.stallOp _ _
theorem Quiet.sendPieces (h : Quiet s t) (c : Nat) (r : OpRun) (g : Segment) (b : Piece) (ref w no : Nat) (d : List Byte) :
    Quiet s (t.sendPieces c r g b ref w no d) := by
  unfold State.sendPieces; dsimp only
  refine Quiet.foldl (fun u x hu => ?_) _ h
  exact Quiet.ite (hu.request _ _ _ _ _ _) (hu.setPool _)
theorem Quiet.sendSeal (h : Quiet s t) (c : Nat) (r : OpRun) (d n : Nat) : Quiet s (t.sendSeal c r d n) := by
  unfold State.sendSeal; dsimp only
  exact Quiet.ite (h.setPool _) (h.request _ _ _ _ _ _)
theorem Quiet.sendSeals (h : Quiet s t) (c : Nat) (r : OpRun) (ds : List Nat) : Quiet s (t.sendSeals c r ds) :=
  Quiet.foldl (fun _ _ hu => hu.sendSeal _ _ _ _) _ h
theorem Quiet.carryWrites (h : Quiet s t) (c : Nat) (r : OpRun) (g : Segment) (d : Side) (lo : Nat) (b : List Byte) :
    Quiet s (t.carryWrites c r g d lo b) := (h.presentWrites _ _ _ _).nextFree
theorem Quiet.carryMapped (h : Quiet s t) (c : Nat) (r : OpRun) (g : Segment) (d : Side) (w : Nat) (f : Byte → List Byte) :
    Quiet s (t.carryMapped c r g d w f) := by
  unfold State.carryMapped; dsimp only
  refine Quiet.ite (Quiet.modRun ?_ _ _) (Quiet.modRun ?_ _ _) <;>
    exact Quiet.foldl (fun _ _ hu => hu.carryWrites _ _ _ _ _ _) _ h
theorem Quiet.chargeMore (h : Quiet s t) (c b n : Nat) : Quiet s (t.chargeMore c b n) := h.modCtx _ _
theorem Quiet.carrySift (h : Quiet s t) (c : Nat) (r : OpRun) (g : Segment) (n : Nat) (b : Bool) (d : Side) (p : Predicate) :
    Quiet s (t.carrySift c r g n b d p) := by
  unfold State.carrySift; dsimp only
  split
  · exact h.failOp _ _
  · exact h.stallOp _ _
  · exact ((h.modRun _ _).chargeMore _ _ _).carryWrites _ _ _ _ _ _
theorem Quiet.noteRef (h : Quiet s t) (c ref : Nat) : Quiet s (t.noteRef c ref) := by
  unfold State.noteRef; exact h.ite (h.modItem _ _)
theorem Quiet.carryPart (h : Quiet s t) (c : Nat) (r : OpRun) (g : Segment) (n : Nat) (d : PartDesc) :
    Quiet s (t.carryPart c r g n d) := by
  unfold State.carryPart; dsimp only
  refine h.ite (Quiet.foldl (fun u i hu => ?_) _ (h.modRun _ _))
  exact ((hu.modRun _ _).noteRef _ _).sendPieces _ _ _ _ _ _ _ _
theorem Quiet.carryPush (h : Quiet s t) (c : Nat) (r : OpRun) (g : Segment) (ref : Nat) (o cl p : Bool) :
    Quiet s (t.carryPush c r g ref o cl p) := by
  unfold State.carryPush; dsimp only
  exact Quiet.ite ((h.modRun _ _).sendPieces _ _ _ _ _ _ _ _) h
theorem Quiet.carry (h : Quiet s t) (c : Nat) (r : OpRun) (g : Segment) : Quiet s (t.carry c r g) := by
  unfold State.carry; dsimp only
  split
  · exact h.carryMapped _ _ _ _ _ _
  · exact h.carryMapped _ _ _ _ _ _
  · exact h.carryMapped _ _ _ _ _ _
  · exact h.carryMapped _ _ _ _ _ _
  · exact (h.carryWrites _ _ _ _ _ _).modRun _ _
  · exact h.modRun _ _
  · exact h.carrySift _ _ _ _ _ _ _
  · exact h.modRun _ _
  · exact h.carryPart _ _ _ _ _
  · exact h.carryPush _ _ _ _ _ _ _
theorem Quiet.settle (h : Quiet s t) (c : Nat) : Quiet s (t.settle c) := h.modRun _ _
theorem Quiet.carryAll (c n : Nat) : ∀ {t : State}, Quiet s t → Quiet s (t.carryAll c n) := by
  induction n with
  | zero => exact fun h => h
  | succ n ih =>
    intro t h
    rw [State.carryAll]
    split
    · exact h.settle _
    · split
      · exact ih ((h.settle _).carry _ _ _)
      · exact h.settle _
theorem Quiet.concludeOp (h : Quiet s t) (c : Nat) (r : OpRun) : Quiet s (t.concludeOp c r) := by
  unfold State.concludeOp; dsimp only
  apply Quiet.finishOp
  split
  · exact (((h.modRun _ _).credit _ _ _).modItem _ _).modItem _ _
  · exact ((h.modRun _ _).credit _ _ _).modItem _ _
theorem Quiet.endData (h : Quiet s t) (c : Nat) (r : OpRun) : Quiet s (t.endData c r) := by
  unfold State.endData; exact Quiet.ite (h.modRun _ _) (h.concludeOp _ _)
theorem Quiet.afterData (h : Quiet s t) (c : Nat) (r : OpRun) : Quiet s (t.afterData c r) := by
  unfold State.afterData; dsimp only
  split
  · refine h.ite ?_
    split
    · exact (h.modRun _ _).sendSeals _ _ _
    · exact Quiet.ite ((h.modRun _ _).sendSeals _ _ _) (h.concludeOp _ _)
    · exact h.endData _ _
  · exact Quiet.ite (h.endData _ _) h
  · exact h
theorem Quiet.advanceRun (h : Quiet s t) (c : Nat) : Quiet s (t.advanceRun c) := by
  have h1 := Quiet.carryAll c 32 h
  unfold State.advanceRun; dsimp only
  refine h1.ite ?_
  split
  · exact h1.afterData _ _
  · exact h1
theorem Quiet.runOp (h : Quiet s t) (c : Nat) (p : List Byte → Bool) (f : Item → List Byte → State)
    (hf : ∀ it b, Quiet s (f it b)) : Quiet s (t.runOp c p f) := by
  unfold State.runOp; split
  · exact h
  · exact Quiet.ite (h.haltBadOp _ _) (Quiet.ite (hf _ _) h)
theorem Quiet.takeStruct (h : Quiet s t) (c : Nat) (it : Item) (d : Nat × Nat × Nat) : Quiet s (t.takeStruct c it d) := by
  unfold State.takeStruct
  exact Quiet.ite (h.haltBadOp _ _) (Quiet.ite (h.modItem _ _) (h.fetchBytes _ _ _ _))
theorem Quiet.beginData (h : Quiet s t) (c : Nat) (it : Item) (b : List Byte) : Quiet s (t.beginData c it b) := by
  unfold State.beginData; dsimp only
  refine Quiet.ite (h.haltBadOp _ _) ?_
  split
  · exact h.takeStruct _ _ _
  · split
    · exact h.nextFree.halt _ _
    · refine Quiet.ite (h.haltBadOp _ _) ?_
      split
      · exact h.finishOp _
      · split
        · exact h.halt _ _
        · exact (h.setSched _).modItem _ _
/-- A data op's command. -/
theorem Quiet.dataOp (h : Quiet s t) (c code : Nat) : Quiet s (t.dataOp c code) := by
  unfold State.dataOp
  refine h.runOp _ _ _ fun it b => ?_
  split
  · exact h.beginData _ _ _
  · exact h.advanceRun _

/-! ## Counters and the end of an op -/

theorem Quiet.readCounter (h : Quiet s t) (c : Nat) (k : CounterOp) (q : Nat) (l : Bool) : Quiet s (t.readCounter c k q l) := by
  unfold State.readCounter; dsimp only
  split
  · exact h.fail _ _
  · refine Quiet.ite (h.stall _ _) (Quiet.present (Quiet.modItem ?_ _ _) _ _ _)
    exact Quiet.ite (h.claim _) h
theorem Quiet.beginCounter (h : Quiet s t) (c : Nat) (it : Item) (g n v : Nat) (b : Bool) (done : State → State)
    (hd : ∀ u, Quiet s u → Quiet s (done u)) : Quiet s (t.beginCounter c it g n v b done) := by
  unfold State.beginCounter
  exact Quiet.ite (hd _ (h.modItem _ _)) (h.modItem _ _)
theorem Quiet.wakeWaits (h : Quiet s t) (g n v : Nat) : Quiet s (t.wakeWaits g n v) := by
  unfold State.wakeWaits
  refine Quiet.foldl (fun u e hu => ?_) _ h
  split
  · refine Quiet.ite (Quiet.ite ?_ (hu.modCtx _ _)) hu
    exact ((hu.modCtx _ _).modItem _ _).finishOp _
  · exact hu.modItem _ _
theorem Quiet.counterApplied (h : Quiet s t) (c : Nat) : Quiet s (t.counterApplied c) := by
  unfold State.counterApplied; dsimp only
  split
  · exact h
  · split
    · exact h
    · have h1 {f : Item → Item} {g : Ctx → Ctx} : Quiet s ((t.modItem c f).modCtx c g) := (h.modItem _ _).modCtx _ _
      exact Quiet.wakeWaits (Quiet.ite h1 (h1.finishOp _)) _ _ _
theorem Quiet.counterUpdate (h : Quiet s t) (c : Nat) : Quiet s (t.counterUpdate c) := by
  unfold State.counterUpdate; dsimp only
  split
  · exact h
  · split
    · exact h
    · refine h.ite (Quiet.ite (Quiet.ite ((h.writeRecord _).modItem _ _) (h.journalFull _)) (h.ite ?_))
      exact (h.modItem _ _).presentBeat _ _ _
theorem Quiet.nextOp (h : Quiet s t) (c : Nat) (b : List Byte) : Quiet s (t.nextOp c b) := by
  unfold State.nextOp; exact Quiet.ite (h.modItem _ _) ((h.modItem _ _).askFetch _)
theorem Quiet.keepPosted (h : Quiet s t) (c : Nat) (it : Item) : Quiet s (t.keepPosted c it) := h.setSched _

/-! ## POOL -/

theorem Quiet.poolAccess (h : Quiet s t) (w : Bool) (bs : List Beat) : Quiet s (t.poolAccess w bs) :=
  Quiet.foldl (fun _ _ hu => Quiet.foldl (fun _ _ hv => hv.present _ _ _) _ hu) _ (Quiet.foldl (fun _ _ hu => by
    split
    · exact hu.giveTiles _ _ _ _ _
    · exact hu) _ (Quiet.ite (h.countFallbacks _) h))
theorem Quiet.poolStart (h : Quiet s t) : Quiet s t.poolStart := by
  unfold State.poolStart; dsimp only
  split
  · exact h
  · exact h.ite ((h.setPool _).poolAccess _ _)
theorem Quiet.poolJobs (h : Quiet s t) (l : List PoolJob) : Quiet s (t.poolJobs l) := (h.setPool _).poolStart
theorem Quiet.poolFirst (h : Quiet s t) (l : List PoolJob) : Quiet s (t.poolFirst l) := h.setPool _
theorem Quiet.dropJobs (h : Quiet s t) (f : PoolJob → Bool) : Quiet s (t.dropJobs f) := by
  unfold State.dropJobs; split
  · exact h
  · exact h.setPool _
theorem Quiet.poolLow (h : Quiet s t) : Quiet s t.poolLow := ((h.setPool _).raiseIf _ _).raiseIf _ _
theorem Quiet.allocCell (h : Quiet s t) : Quiet s t.allocCell.1 := by
  unfold State.allocCell; split <;> exact h.setPool _
theorem Quiet.allocCells (n : Nat) : ∀ {t : State}, Quiet s t → Quiet s (t.allocCells n).1 := by
  induction n with
  | zero => exact fun h => h
  | succ n ih => exact fun h => ih h.allocCell
theorem Quiet.freeCell (h : Quiet s t) (k : Nat) : Quiet s (t.freeCell k) := ((h.poolJobs _).nextFree).setPool _
theorem Quiet.freeAll (h : Quiet s t) (ks : List Nat) : Quiet s (t.freeAll ks) :=
  (Quiet.foldl (fun _ _ hu => hu.freeCell _) _ h).poolLow
theorem Quiet.syncPointers (h : Quiet s t) (g : Nat) : Quiet s (t.syncPointers g) := h.setGalley _ _
theorem Quiet.writeDesc (h : Quiet s t) (g : Nat) : Quiet s (t.writeDesc g) := h.poolJobs _
theorem Quiet.poolRefill (h : Quiet s t) (g : Nat) : Quiet s (t.poolRefill g) := by
  unfold State.poolRefill; dsimp only
  refine h.ite ?_
  split
  · exact h.poolJobs _
  · exact h
theorem Quiet.clearMark (h : Quiet s t) (n : Nat) : Quiet s (t.clearMark n) := by
  unfold State.clearMark; exact h.ite (h.poolJobs _)
theorem Quiet.openMark (h : Quiet s t) (p : Piece) (n : Nat) : Quiet s (t.openMark p n) := by
  unfold State.openMark; dsimp only
  exact ((Quiet.foldl (fun _ _ hu => hu.clearMark _) _ h).setPool _).poolJobs _
theorem Quiet.sealMark (h : Quiet s t) (p : Piece) : Quiet s (t.sealMark p) := by
  unfold State.sealMark; dsimp only
  exact (Quiet.foldl (fun _ _ hu => hu.clearMark _) _ h).setPool _
theorem Quiet.noteUnit (h : Quiet s t) (p : Piece) (x : MarkState) (b : Bool) : Quiet s (t.noteUnit p x b) := by
  unfold State.noteUnit; dsimp only
  split
  · exact (h.setPool _).poolJobs _
  · exact h.setPool _
theorem Quiet.freeMarks (h : Quiet s t) (f : PushMark → Bool) : Quiet s (t.freeMarks f) := by
  unfold State.freeMarks; dsimp only
  exact (Quiet.foldl (fun _ _ hu => Quiet.ite (hu.clearMark _) hu) _ h).setPool _
theorem Quiet.lowerMark (h : Quiet s t) (p : Piece) : Quiet s (t.lowerMark p) := by
  unfold State.lowerMark; dsimp only
  split
  · split
    · exact (h.setPool _).poolJobs _
    · exact h.freeMarks _
  · exact h
theorem Quiet.resendSeals (h : Quiet s t) (c : Nat) : Quiet s (t.resendSeals c) := by
  unfold State.resendSeals; split
  · exact Quiet.ite (h.sendSeals _ _ _) h
  · exact h
theorem Quiet.reissue (h : Quiet s t) (c : Nat) : Quiet s (t.reissue c) := ((h.unstall _).modRun _ _).resendSeals _
theorem Quiet.reissueIf (h : Quiet s t) (c g : Nat) (p : Nat → Bool) (ok : WaitOn → Bool) : Quiet s (t.reissueIf c g p ok) := by
  unfold State.reissueIf; dsimp only
  split
  · exact Quiet.ite (h.unstall _) h
  · refine Quiet.ite (Quiet.resendSeals (Quiet.modRun ?_ _ _) _) h
    exact Quiet.ite (h.unstall _) h
theorem Quiet.stallRefused (h : Quiet s t) (c : Nat) : Quiet s (t.stallRefused c) := by
  unfold State.stallRefused; split
  · exact Quiet.ite (h.stall _ _) h
  · exact h
theorem Quiet.poolHalt (h : Quiet s t) (c : Nat) (r : OpRun) (o d : Nat) (a : PoolAnswer) : Quiet s (t.poolHalt c r o d a) := by
  unfold State.poolHalt; dsimp only
  split
  · exact (h.modRun _ _).failOp _ _
  · exact h.failOp _ _
  · exact h.failOp _ _
  · exact h
theorem Quiet.pieceAnswered (h : Quiet s t) (c n g d k r : Nat) (a : PoolAnswer) : Quiet s (t.pieceAnswered c n g d k r a) := by
  unfold State.pieceAnswered; dsimp only
  split
  · exact h
  · refine h.ite (Quiet.ite ?_ (Quiet.stallRefused (Quiet.modRun ?_ _ _) _)) <;>
      exact Quiet.poolHalt (Quiet.ite ((h.modRun _ _).modRun _ _) (h.modRun _ _)) _ _ _ _ _
theorem Quiet.sealAnswered (h : Quiet s t) (c n d : Nat) (a : PoolAnswer) : Quiet s (t.sealAnswered c n d a) := by
  unfold State.sealAnswered; dsimp only
  split
  · exact h
  · refine h.ite ?_
    split
    · exact Quiet.ite (h.stall _ _) h
    · split
      · exact (h.modRun _ _).sendSeals _ _ _
      · exact h.poolHalt _ _ _ _ _
theorem Quiet.remember (h : Quiet s t) (n g : Nat) (a : PoolAnswer) : Quiet s (t.remember n g a) := by
  unfold State.remember; split
  · exact h.setPool _
  · exact h
theorem Quiet.answerPiece (h : Quiet s t) (p : Piece) (a : PoolAnswer) : Quiet s (t.answerPiece p a) := by
  unfold State.answerPiece; split
  · exact (h.sendFrame _).remember _ _ _
  · exact h.pieceAnswered _ _ _ _ _ _ _
theorem Quiet.answerSeal (h : Quiet s t) (p : Piece) (a : PoolAnswer) : Quiet s (t.answerSeal p a) := by
  unfold State.answerSeal; split
  · exact (h.sendFrame _).remember _ _ _
  · exact h.sealAnswered _ _ _ _
theorem Quiet.giveRoom (h : Quiet s t) (g : Nat) : Quiet s (t.giveRoom g) := by
  unfold State.giveRoom; dsimp only
  refine Quiet.foldl (fun _ _ hu => hu.request _ _ _ _ _ _) _ (Quiet.setPool ?_ _)
  exact Quiet.foldl (fun _ _ hu => hu.reissueIf _ _ _ _) _ h
theorem Quiet.wakePops (h : Quiet s t) (g : Nat) : Quiet s (t.wakePops g) :=
  Quiet.foldl (fun _ _ hu => Quiet.ite (hu.unstall _) hu) _ h
theorem Quiet.discardUnit (h : Quiet s t) (g : Nat) (u : OpenUnit) : Quiet s (t.discardUnit g u) := (h.setGalley _ _).freeAll _
theorem Quiet.discardEarlier (h : Quiet s t) (p : Piece) : Quiet s (t.discardEarlier p) := by
  unfold State.discardEarlier
  exact Quiet.ite (Quiet.foldl (fun _ _ hu => Quiet.foldl (fun _ _ hv => (hv.discardUnit _ _).lowerMark _) _ hu) _ h) h
theorem Quiet.storePiece (h : Quiet s t) (p : Piece) (a : PieceAct) : Quiet s (t.storePiece p a) := by
  unfold State.storePiece; dsimp only
  refine Quiet.ite (h.answerPiece _ _) (Quiet.ite (h.answerPiece _ _) (Quiet.ite ((h.raise _).answerPiece _ _)
    (Quiet.ite (h.answerPiece _ _) (Quiet.answerPiece ?_ _ _))))
  have h1 {y : Galley} {n : Nat} : Quiet s (((t.allocCells n).1.setGalley p.galley y).poolLow) :=
    ((Quiet.allocCells n h).setGalley _ _).poolLow
  exact Quiet.ite (Quiet.openMark (Quiet.ite (h1.poolJobs _) h1) _ _) (Quiet.ite (Quiet.poolJobs (Quiet.ite (h1.poolJobs _) h1) _)
    (Quiet.ite (Quiet.setPool (Quiet.ite (h1.poolJobs _) h1) _) (Quiet.ite (h1.poolJobs _) h1)))
theorem Quiet.takePiece (h : Quiet s t) (p : Piece) : Quiet s (t.takePiece p) := by
  have h1 := h.discardEarlier p
  unfold State.takePiece; dsimp only
  split
  · exact h1.answerPiece _ _
  · exact h1.answerPiece _ _
  · exact h1.answerPiece _ _
  · refine Quiet.ite (h1.setPool _) ?_
    split
    · exact (h1.setPool _).answerPiece _ _
    · exact Quiet.ite (h1.answerPiece _ _) (h1.storePiece _ _)
theorem Quiet.reclaimCells (h : Quiet s t) (g : Nat) : Quiet s (t.reclaimCells g) := by
  unfold State.reclaimCells; dsimp only
  exact h.ite (((((h.setGalley _ _).poolJobs _).syncPointers _).writeDesc _).freeAll _)
theorem Quiet.settleChain (h : Quiet s t) (g : Nat) : Quiet s (t.settleChain g) := by
  unfold State.settleChain; dsimp only
  exact Quiet.ite ((h.reclaimCells _).writeDesc _) (h.reclaimCells _)
theorem Quiet.endDelete (h : Quiet s t) (g : Nat) : Quiet s (t.endDelete g) := by
  unfold State.endDelete; dsimp only
  exact Quiet.ite ((h.setGalley _ _).freeAll _) h
theorem Quiet.releaseEntries (h : Quiet s t) (g : Nat) (f : Entry → Bool) : Quiet s (t.releaseEntries g f) := by
  unfold State.releaseEntries; dsimp only
  exact h.ite ((((Quiet.foldl (fun _ _ hu => hu.clearMark _) _ h).setGalley _ _).settleChain _).endDelete _)
theorem Quiet.releaseHeld (h : Quiet s t) (c q : Nat) : Quiet s (t.releaseHeld c q) :=
  Quiet.foldl (fun _ _ hu => hu.releaseEntries _ _) _ h
theorem Quiet.releaseMarks (h : Quiet s t) (x : Stream) (q : Nat) : Quiet s (t.releaseMarks x q) := h.freeMarks _
theorem Quiet.notice (h : Quiet s t) (c k r q o : Nat) : Quiet s (t.notice c k r q o) := by
  unfold State.notice; dsimp only
  exact h.request _ _ _ _ _ _
theorem Quiet.releaseItem (h : Quiet s t) (c q : Nat) (l : List Nat) : Quiet s (t.releaseItem c q l) := by
  have h1 : Quiet s ((t.releaseHeld c q).releaseMarks (t.stream c) q) := (h.releaseHeld _ _).releaseMarks _ _
  unfold State.releaseItem; dsimp only
  exact Quiet.ite (Quiet.foldl (fun _ _ hu => hu.notice _ _ _ _ _) _ h1) h1
theorem Quiet.releaseDurable (h : Quiet s t) (c q : Nat) (l : List Nat) (p : Nat) : Quiet s (t.releaseDurable c q l p) := by
  unfold State.releaseDurable; exact Quiet.ite (h.releaseItem _ _ _) (h.setJrn _)
theorem Quiet.releaseWaiting (h : Quiet s t) : Quiet s t.releaseWaiting := by
  unfold State.releaseWaiting; dsimp only
  exact Quiet.foldl (fun _ _ hu => hu.releaseItem _ _ _) _ (h.setJrn _)
theorem Quiet.poolRelease (h : Quiet s t) (p : Piece) : Quiet s (t.poolRelease p) := h.freeMarks _
theorem Quiet.poolDiscard (h : Quiet s t) (p : Piece) : Quiet s (t.poolDiscard p) := by
  unfold State.poolDiscard; dsimp only
  split
  · exact h
  · exact h.ite ((Quiet.foldl (fun _ _ hu => hu.discardUnit _ _) _ h).noteUnit _ _ _)
theorem Quiet.abortUnits (h : Quiet s t) (g : Nat) (x : Stream) (q : Nat) : Quiet s (t.abortUnits g x q) :=
  Quiet.foldl (fun _ _ hu => (hu.discardUnit _ _).noteUnit _ _ _) _ h
theorem Quiet.flushUnits (h : Quiet s t) (g : Nat) : Quiet s (t.flushUnits g) :=
  Quiet.foldl (fun _ _ hu => (hu.discardUnit _ _).noteUnit _ _ _) _ h
theorem Quiet.flushGalley (h : Quiet s t) (g : Nat) : Quiet s (t.flushGalley g) := by
  unfold State.flushGalley; dsimp only
  exact (((h.flushUnits _).setGalley _ _).settleChain _).syncPointers _
theorem Quiet.popLost (h : Quiet s t) (c n : Nat) : Quiet s (t.popLost c n) := h.modItem _ _
theorem Quiet.dropIdle (h : Quiet s t) (g : Nat) (b : Bool) : Quiet s (t.dropIdle g b) := by
  unfold State.dropIdle
  refine Quiet.foldl (fun u j hu => ?_) _ (h.dropJobs _)
  split
  · exact Quiet.ite (hu.popLost _ _) hu
  · exact hu
theorem Quiet.loseGalley (h : Quiet s t) (g : Nat) : Quiet s (t.loseGalley g) := by
  unfold State.loseGalley; dsimp only
  have h1 := (h.dropIdle g true).flushUnits g
  exact (((((Quiet.foldl (fun _ _ hu => hu.clearMark _) _ h1).setGalley _ _).syncPointers _).writeDesc _).freeAll _ |>.raise _).giveRoom _
theorem Quiet.cancelSeal (h : Quiet s t) (g : Nat) : Quiet s (t.cancelSeal g) := by
  unfold State.cancelSeal; dsimp only
  split
  · exact h
  · exact (((h.setPool _).setGalley _ _).freeAll _).answerSeal _ _
theorem Quiet.countMismatch (h : Quiet s t) (g : Nat) : Quiet s (t.countMismatch g) := by
  unfold State.countMismatch; dsimp only
  exact h.ite ((h.setGalley _ _).raise _)
theorem Quiet.pointerMismatch (h : Quiet s t) (g : Nat) : Quiet s (t.pointerMismatch g) := by
  unfold State.pointerMismatch; dsimp only
  have h1 := h.countMismatch g
  exact h1.ite (Quiet.ite (((h1.setGalley _ _).dropIdle _ _).cancelSeal _) ((h1.setGalley _ _).loseGalley _))
theorem Quiet.finishSeal (h : Quiet s t) (g : Nat) (x : Sealing) : Quiet s (t.finishSeal g x) := by
  unfold State.finishSeal; dsimp only
  have h1 {y : Galley} : Quiet s ((t.setGalley g y).syncPointers g) := (h.setGalley _ _).syncPointers _
  exact (((Quiet.ite (h1.sealMark _) h1).answerSeal _ _).wakePops _).poolRefill _
theorem Quiet.startSeal (h : Quiet s t) (p : Piece) (u : OpenUnit) : Quiet s (t.startSeal p u) := by
  unfold State.startSeal; dsimp only
  refine Quiet.ite (h.answerSeal _ _) (Quiet.ite ?_ ?_)
  · exact (((Quiet.allocCells _ h).setGalley _ _).poolLow).poolJobs _
  · exact (((Quiet.allocCells _ h).poolJobs _).finishSeal _ _).poolLow
theorem Quiet.takeSeal (h : Quiet s t) (p : Piece) : Quiet s (t.takeSeal p) := by
  unfold State.takeSeal; dsimp only
  split
  · exact h.answerSeal _ _
  · exact h.answerSeal _ _
  · exact h.answerSeal _ _
  · split
    · exact h.answerSeal _ _
    · exact h.answerSeal _ _
    · exact Quiet.ite ((h.pointerMismatch _).answerSeal _ _) (h.startSeal _ _)
theorem Quiet.rebuild (h : Quiet s t) (g : Nat) : Quiet s (t.rebuild g) := by
  unfold State.rebuild; exact h.ite (h.poolJobs _)
theorem Quiet.endRebuild (h : Quiet s t) (g : Nat) (b : Bool) : Quiet s (t.endRebuild g b) := by
  unfold State.endRebuild; dsimp only
  exact ((((h.setGalley _ _).poolJobs _).writeDesc _).poolRefill _).giveRoom _
theorem Quiet.rebuildFrom (h : Quiet s t) (g : Nat) : Quiet s (t.rebuildFrom g) := by
  unfold State.rebuildFrom; dsimp only
  exact Quiet.ite (((h.setGalley _ _).flushGalley _).endRebuild _ _) (h.poolFirst _)
theorem Quiet.releaseDone (h : Quiet s t) (g : Nat) : Quiet s (t.releaseDone g) := h.releaseEntries _ _
theorem Quiet.walkFrom (h : Quiet s t) (g k n : Nat) : Quiet s (t.walkFrom g k n) := by
  unfold State.walkFrom; exact Quiet.ite ((h.countMismatch _).loseGalley _) (h.ite (h.poolFirst _))
theorem Quiet.refillFrom (h : Quiet s t) (g k : Nat) : Quiet s (t.refillFrom g k) := by
  unfold State.refillFrom; dsimp only
  exact h.ite (Quiet.ite (h.pointerMismatch _) ((h.setGalley _ _).poolRefill _))
theorem Quiet.payloadRead (h : Quiet s t) (c n g : Nat) (l : List Nat) (o m : Nat) (b : Bool) :
    Quiet s (t.payloadRead c n g l o m b) := by
  unfold State.payloadRead; exact Quiet.ite ((h.pointerMismatch _).popLost _ _) (h.modItem _ _)
theorem Quiet.descWritten (h : Quiet s t) (g : Nat) : Quiet s (t.descWritten g) := by
  unfold State.descWritten; dsimp only
  exact h.ite (h.setGalley _ _)
theorem Quiet.jobDone (h : Quiet s t) (j : PoolJob) : Quiet s (t.jobDone j) := by
  unfold State.jobDone; dsimp only
  split
  · exact h
  · exact Quiet.ite (h.pointerMismatch _) (Quiet.poolFirst (Quiet.ite (h.setGalley _ _) h) _)
  · exact h.ite (h.cancelSeal _)
  · split
    · exact (h.finishSeal _ _).poolLow
    · exact h
  · exact h.descWritten _
  · exact h.refillFrom _ _
  · exact h.payloadRead _ _ _ _ _ _ _
  · exact Quiet.ite (h.rebuildFrom _) h
  · exact h.releaseDone _
  · exact Quiet.ite (h.walkFrom _ _ _) h
  · exact Quiet.ite (h.endRebuild _ _) h
  · exact h
theorem Quiet.poolFinish (h : Quiet s t) : Quiet s t.poolFinish := by
  unfold State.poolFinish; split
  · exact h
  · exact (h.setPool _).jobDone _
theorem Quiet.poolNext (n : Nat) : ∀ {t : State}, Quiet s t → Quiet s (t.poolNext n) := by
  induction n with
  | zero => exact fun h => h
  | succ n ih =>
    intro t h
    have h1 : Quiet s (if t.pool.busy then t.poolFinish else t).poolStart := (Quiet.ite h.poolFinish h).poolStart
    rw [State.poolNext]; dsimp only
    exact h.ite (h1.ite (ih h1.poolFinish))
/-- All that POOL does until an access is under way or nothing is left. -/
theorem Quiet.poolRun (h : Quiet s t) : Quiet s t.poolRun := Quiet.poolNext _ h

/-! ## Link -/

theorem Quiet.localise (h : Quiet s t) (r : Remote) : Quiet s (t.localise r) := by
  unfold State.localise; dsimp only
  have k := h.setRemotes (t.fab.remotes.filter (· ≠ r))
  split
  · exact Quiet.ite k (k.modRun _ _)
  · exact k.setPool _
  · exact k.setPool _
  · exact k.setSched _
  · refine Quiet.poolRun ?_
    split
    · exact k.poolRelease _
    · exact k.poolDiscard _
    · exact k.giveRoom _
  · exact k.foldl (fun _ _ hu => hu.presentWrites _ _ _ _) _
theorem Quiet.sendWaiting (h : Quiet s t) : Quiet s t.sendWaiting := by
  unfold State.sendWaiting
  refine h.foldl (fun u r hu => ?_) _
  exact hu.ite (Quiet.ite (hu.localise _) (Quiet.ite ((hu.setRemotes _).sendFrame _) hu))
/-- Waking what waits for a route: a twin that is shipped to and that no route leads to is unreachable. -/
theorem State.wakeRoutes_quiet (s : State) :
    Quiet { s with twin := if s.shipping && !s.routed (s.obj 0x9020 0 % 4096) then { s.twin with state := 2 } else s.twin }
      s.wakeRoutes := by
  have ctxs : ∀ (u v : State) (l : Tab Ctx), Quiet u (l.foldl (fun t e => match e.2.waitOn with
      | some (.route n _) => if v.reachable n then t.unstall e.1 else t
      | _ => t) u) := fun u v l => (Quiet.refl u).foldl (fun w e hw => by
    split
    · exact Quiet.ite (hw.unstall _) hw
    · exact hw) l
  have slots : ∀ (u u' v : State) (l : Tab Slot), Quiet u u' → Quiet u (l.foldl (fun t e => match e.2.stalled with
      | some (.route n _) => if v.reachable n then t.setSlot e.1 { t.slot e.1 with stalled := none } else t
      | _ => t) u') := fun u u' v l h => h.foldl (fun w e hw => by
    split
    · exact Quiet.ite (hw.setSlot _ _) hw
    · exact hw) l
  unfold State.wakeRoutes
  by_cases h : (s.shipping && !s.routed (s.obj 0x9020 0 % 4096)) = true
  · simp only [h, if_true]; exact (slots _ _ _ _ (ctxs _ _ _)).sendWaiting
  · simp only [h]; exact (slots _ _ _ _ (ctxs _ _ _)).sendWaiting

end Sys2Proof.Machine
end

