-- ==== Sys2Proof/Laws/Links.lean ====
section
/-! SUPPORT. What the sending and taking of frames, adverts and identifiers can do to a node. -/
namespace Sys2Proof.Machine

/-! ## Frames that go out -/

/-- t is s with frames queued on links. -/
structure Sends (s t : State) : Prop where
  eq : t = { s with fab := { s.fab with links := t.fab.links } }
  link : ∀ m, t.link m = { s.link m with tx := (t.link m).tx }

theorem Sends.refl (s : State) : Sends s s := ⟨rfl, fun _ => rfl⟩
theorem Sends.queueFrame {s t : State} (h : Sends s t) (l : Nat) (f : Frame) : Sends s (t.queueFrame l f) := by
  refine ⟨?_, fun m => ?_⟩
  · unfold State.queueFrame State.setLink; dsimp only; rw [h.eq]
  · simp only [State.queueFrame, State.link_setLink]
    split
    · subst_vars; rw [h.link m]
    · exact h.link m
theorem Sends.ite {s t u : State} {p : Prop} [Decidable p] (h : Sends s t) (k : Sends s u) : Sends s (if p then t else u) := by
  split
  · exact h
  · exact k
theorem Sends.foldl {α : Type} {s t : State} {f : State → α → State} (hf : ∀ u a, Sends s u → Sends s (f u a)) (l : List α)
    (h : Sends s t) : Sends s (l.foldl f t) := by
  induction l generalizing t with
  | nil => exact h
  | cons a l ih => exact ih (hf _ _ h)
theorem Sends.sendAdvert {s t : State} (h : Sends s t) (f : Frame) (ex : Option Nat) : Sends s (t.sendAdvert f ex) := by
  unfold State.sendAdvert
  exact h.foldl (fun u e k => Sends.ite k (k.queueFrame _ _)) _

@[simp] theorem State.queueFrame_last (s : State) (l : Nat) (f : Frame) : ((s.queueFrame l f).link l).tx.getLast? = some f := by
  simp [State.queueFrame]
theorem State.queueFrame_link (s : State) (l m : Nat) (f : Frame) (h : m ≠ l) : (s.queueFrame l f).link m = s.link m := by
  rw [State.queueFrame, State.link_setLink, if_neg (Ne.symm h)]

/-- Every up link is among upLinks. -/
theorem State.mem_upLinks (s : State) (m : Nat) (h : (s.link m).up = true) : ∃ k, (m, k) ∈ s.upLinks := by
  have get : ∀ t : Tab Link, (Tab.get (fun _ => ({} : Link)) t m).up = true → ∃ k, (m, k) ∈ t.filter fun e => e.2.up := by
    intro t
    induction t with
    | nil => intro h; simp [Tab.get, Link.up] at h
    | cons e t ih =>
      intro h
      simp only [Tab.get] at h
      split at h
      · rename_i hb; exact ⟨e.2, by simp [← hb, h]⟩
      · obtain ⟨k, hk⟩ := ih h
        exact ⟨k, by simp at hk ⊢; exact ⟨.inr hk.1, hk.2⟩⟩
  exact get _ h
/-- An advert goes out on every up link but the one left out. -/
theorem State.sendAdvert_last (s : State) (f : Frame) (ex : Option Nat) (m : Nat) (hx : ex ≠ some m)
    (h : (s.link m).up = true) : ((s.sendAdvert f ex).link m).tx.getLast? = some f := by
  have go : ∀ (l : List (Nat × Link)) (t : State),
      ((t.link m).tx.getLast? = some f ∨ ∃ k, (m, k) ∈ l) →
        ((l.foldl (fun t e => if ex = some e.1 then t else t.queueFrame e.1 f) t).link m).tx.getLast? = some f := by
    intro l
    induction l with
    | nil => intro t ht; simpa using ht
    | cons e l ih =>
      intro t ht
      refine ih _ ?_
      by_cases hm : e.1 = m
      · refine .inl ?_
        dsimp only
        rw [if_neg (hm ▸ hx), hm, State.queueFrame_last]
      · obtain ht | ⟨k, hk⟩ := ht
        · refine .inl ?_
          dsimp only
          split
          · exact ht
          · rw [State.queueFrame_link _ _ _ _ (Ne.symm hm)]; exact ht
        · obtain hk | hk := List.mem_cons.mp hk
          · exact absurd (congrArg Prod.fst hk).symm hm
          · exact .inr ⟨k, hk⟩
  exact go _ _ (.inr (s.mem_upLinks m h))

/-! ## A frame taken from a receive buffer -/

/-- Taking a frame changes the links alone, of a link its receive buffer and the credits freed. -/
theorem State.takeRx_eq (s : State) (f : Frame) :
    s.takeRx f = { s with fab := { s.fab with links := (s.takeRx f).fab.links } } := by
  unfold State.takeRx; split <;> rfl
theorem State.takeRx_nodeNum (s : State) (f : Frame) : (s.takeRx f).nodeNum = s.nodeNum := by
  rw [State.takeRx_eq]; rfl

/-! ## Adverts -/

/-- A table entry that was put in is the one found. -/
theorem Tab.find_insert {α : Type} (k : Nat) (v : α) (t : Tab α) :
    ((Tab.insert k v t).find? fun e => e.1 = k).map (·.2) = some v := by
  induction t with
  | nil => simp [Tab.insert]
  | cons e t ih =>
    simp only [Tab.insert]
    split
    · simp
    · split
      · simp
      · rw [List.find?_cons_of_neg]
        · exact ih
        · simp; omega
/-- A conflict changes NODE_STATE to 3 and raises its event; without one nothing changes. -/
theorem State.meetConflict_eq (s : State) (a : Advert) : s.meetConflict a =
    { s with fab := { s.fab with nodeState := (s.meetConflict a).fab.nodeState }, ctl := (s.meetConflict a).ctl } := by
  unfold State.meetConflict; split
  · rw [State.raise_eq]
  · rfl
theorem State.meetConflict_state (s : State) (a : Advert) (h1 : s.fab.nodeState = 1) (h2 : s.fab.nodeId = some a.node)
    (h3 : a.serial < s.ownSerial) : (s.meetConflict a).fab.nodeState = 3 := by
  unfold State.meetConflict
  rw [if_pos ⟨h1, h2, h3⟩]
  rw [State.raise_eq]
/-- A flood changes the fabric alone: the next ADVERT_SEQ, the node's own advert, and what its links send. -/
theorem State.floodAdvert_eq (s : State) (h1 : s.fab.nodeState ≠ 2) (h2 : s.ctl.mode ≠ .halt) :
    ∃ t : State, t = { s with fab := { s.fab with
        advertSeq := (s.fab.advertSeq + 1) % 2 ^ 32
        adverts := Tab.insert s.ownSerial (s.advertNow s.fab.advertSeq) s.fab.adverts } } ∧
      Sends t s.floodAdvert ∧ s.floodAdvert = t.sendAdvert (advertFrame (s.advertNow s.fab.advertSeq) s.nodeNum) none := by
  refine ⟨_, rfl, ?_⟩
  unfold State.floodAdvert
  rw [if_neg (by simp [h1, h2])]
  exact ⟨(Sends.refl _).sendAdvert _ _, rfl⟩
/-- A flood, or none where the node sends none: ADVERT_SEQ, the adverts held, and what its links send. -/
theorem State.floodAdvert_sends (s : State) : ∃ t : State, t = { s with fab := t.fab } ∧
    t.fab = { s.fab with advertSeq := t.fab.advertSeq, adverts := t.fab.adverts } ∧ Sends t s.floodAdvert := by
  by_cases h : s.fab.nodeState = 2 ∨ s.ctl.mode = .halt
  · refine ⟨s, rfl, rfl, ?_⟩; unfold State.floodAdvert; rw [if_pos h]; exact Sends.refl _
  · obtain ⟨t, ht, hs, -⟩ := s.floodAdvert_eq (fun e => h (.inl e)) (fun e => h (.inr e))
    exact ⟨t, by rw [ht], by rw [ht], hs⟩
/-- Learning of a serial leaves the assigner's at most that serial, unless it has departed, and every link. -/
theorem State.learnRoot_root (s : State) (n : Nat) :
    s.learnRoot n = { s with fab := { s.fab with rootSerial := (s.learnRoot n).fab.rootSerial } } ∧
      (s.fab.departed.contains n = false → (s.learnRoot n).root ≤ n) ∧ (s.learnRoot n).root ≤ s.root := by
  unfold State.learnRoot; split
  · rename_i h; exact ⟨rfl, fun _ => Nat.le_refl _, Nat.le_of_lt h.1⟩
  · rename_i h; exact ⟨rfl, fun k => by rw [k] at h; simpa using h, Nat.le_refl _⟩
theorem State.learnRoot_link (s : State) (n l : Nat) : (s.learnRoot n).link l = s.link l := by
  unfold State.learnRoot; split <;> rfl
/-- A beacon changes what the node knows of the assigner and of who has departed. -/
theorem State.learnBeacon_eq (s : State) (b : Beacon) : s.learnBeacon b =
    { s with fab := { s.fab with rootSerial := (s.learnBeacon b).fab.rootSerial, departed := (s.learnBeacon b).fab.departed } } := by
  unfold State.learnBeacon
  rw [((s.hearNode b.serial).learnRoot b.rootSerial).learnRoot_root b.serial |>.1, (s.hearNode b.serial).learnRoot_root b.rootSerial |>.1]
  rfl
theorem State.learnBeacon_link (s : State) (b : Beacon) (l : Nat) : (s.learnBeacon b).link l = s.link l := by
  unfold State.learnBeacon; rw [State.learnRoot_link, State.learnRoot_link]; rfl
/-- After a beacon the assigner's serial is at most the neighbour's own, and at most its ROOT_SERIAL unless that has departed. -/
theorem State.learnBeacon_root (s : State) (b : Beacon) :
    (s.learnBeacon b).root ≤ b.serial ∧ (s.learnBeacon b).root ≤ s.root ∧
      (s.fab.departed.contains b.rootSerial = false → (s.learnBeacon b).root ≤ b.rootSerial) := by
  have h1 := (s.hearNode b.serial).learnRoot_root b.rootSerial
  have h2 := ((s.hearNode b.serial).learnRoot b.rootSerial).learnRoot_root b.serial
  have hd : ((s.hearNode b.serial).learnRoot b.rootSerial).fab.departed.contains b.serial = false := by
    rw [h1.1]; simp [State.hearNode]
  refine ⟨h2.2.1 hd, Nat.le_trans h2.2.2 h1.2.2, fun k => Nat.le_trans h2.2.2 (h1.2.1 ?_)⟩
  simp [State.hearNode] at k ⊢; intro h; exact absurd h k

/-! ## A link that goes down, and that waits for lock -/

/-- A link that goes down changes the fabric alone; it is down, with nothing to replay, and keeps its lock. -/
theorem State.linkDown_link (s : State) (l : Nat) : s.linkDown l = { s with fab := (s.linkDown l).fab } ∧
    ((s.linkDown l).link l).state = 4 ∧ ((s.linkDown l).link l).replay = [] ∧ ((s.linkDown l).link l).lock = (s.link l).lock := by
  unfold State.linkDown; dsimp only
  generalize hu : State.takeAlternates _ l = u
  have h1 : u = { s with fab := u.fab } ∧ (u.link l).state = 4 ∧ (u.link l).replay = [] ∧ (u.link l).lock = (s.link l).lock := by
    have e : ∀ w : State, (w.takeAlternates l).link l = w.link l := fun _ => rfl
    rw [← hu]; refine ⟨rfl, ?_⟩
    rw [e, State.link_setLink_self]; exact ⟨rfl, rfl, rfl⟩
  generalize List.filter _ _ = moved
  have h2 : Sends u (moved.foldl (fun t f => t.queueFrame (s.route f.dest).alternate f) u) :=
    (Sends.refl u).foldl (fun _ _ h => h.queueFrame _ _) _
  generalize moved.foldl _ u = v at *
  have h3 : v = { s with fab := v.fab } ∧ (v.link l).state = 4 ∧ (v.link l).replay = [] ∧ (v.link l).lock = (s.link l).lock := by
    rw [h2.link]; exact ⟨by rw [h2.eq, h1.1], h1.2⟩
  split
  · obtain ⟨w, e1, e2, e3⟩ := v.floodAdvert_sends
    have hl : w.link l = v.link l := by unfold State.link; rw [e2]
    rw [e3.link, hl]
    exact ⟨by rw [e3.eq, e1, h3.1], h3.2⟩
  · exact h3
theorem State.canTrain_congr (s t : State) (l : Nat) (h : t = { s with fab := t.fab }) : t.canTrain l = s.canTrain l := by
  rw [h]; rfl
/-- A link that is down waits for lock where it may train, and else stays down. -/
theorem State.awaitLock_link (s : State) (l : Nat) (h : (s.link l).state = 4) :
    s.awaitLock l = { s with fab := (s.awaitLock l).fab } ∧ ((s.awaitLock l).link l).state = (if s.canTrain l then 1 else 4) ∧
      ((s.awaitLock l).link l).replay = (s.link l).replay := by
  unfold State.awaitLock; dsimp only; by_cases hc : s.canTrain l = true
  · simp only [hc, h, or_true, and_true, if_true, State.link_setLink_self]; trivial
  · simp only [hc]; simp [h]
theorem Tab.insert_insert {α : Type} (k : Nat) (a b : α) (t : Tab α) : Tab.insert k b (Tab.insert k a t) = Tab.insert k b t := by
  induction t with
  | nil => simp [Tab.insert]
  | cons e t ih =>
    simp only [Tab.insert]
    split
    · simp [Tab.insert]
    · split
      · subst_vars; simp [Tab.insert]
      · rename_i h1 h2; simp only [Tab.insert, h1, h2, if_false, ih]
/-- The later of two updates of a link stands, where neither is the link of reset. -/
theorem State.setLink_setLink (s : State) (l : Nat) (x y : Link) (hx : x ≠ {}) (hy : y ≠ {}) :
    (s.setLink l x).setLink l y = s.setLink l y := by
  have h : ∀ t : Tab Link, Tab.put (fun _ => ({} : Link)) (Tab.put (fun _ => {}) t l x) l y = Tab.put (fun _ => {}) t l y := by
    intro t; simp only [Tab.put, hx, hy, if_false]; exact Tab.insert_insert _ _ _ _
  unfold State.setLink; dsimp only; rw [h]

/-! ## Blocks -/

/-- Filling a block with frames takes them from the link's output and spends credits. -/
theorem Link.fill_eq (n : Nat) : ∀ (k : Link) (m : Bool) (b : List Byte) (c : Nat) (d : Bool),
    (Link.fill k m n b c d).1 = { k with
      tx := (Link.fill k m n b c d).1.tx, spent := (Link.fill k m n b c d).1.spent
      txCounted := (Link.fill k m n b c d).1.txCounted } := by
  induction n with
  | zero => intros; rfl
  | succ n ih =>
    intro k m b c d
    simp only [Link.fill]
    split
    · rfl
    · split
      · rfl
      · rw [ih]
/-- Sending a block leaves the link's state, its lock and what it has received. -/
theorem Link.send_keeps (k : Link) : k.send.state = k.state ∧ k.send.errs = k.errs ∧ k.send.lock = k.lock ∧
    k.send.rxNumber = k.rxNumber ∧ k.send.rx = k.rx := by
  unfold Link.send; split
  · exact ⟨rfl, rfl, rfl, rfl, rfl⟩
  · dsimp only; split
    · exact ⟨rfl, rfl, rfl, rfl, rfl⟩
    · rw [Link.fill_eq]; exact ⟨rfl, rfl, rfl, rfl, rfl⟩
/-- A good trailer leaves the numbers and frames received. -/
theorem Link.trailerIn_keeps (k : Link) (b : List Byte) :
    (k.trailerIn b).rxNumber = k.rxNumber ∧ (k.trailerIn b).nak = k.nak ∧ (k.trailerIn b).rx = k.rx := by
  unfold Link.trailerIn; dsimp only; split <;> exact ⟨rfl, rfl, rfl⟩
theorem Link.store_keeps (own : Option Nat) (k : Link) (f : Frame) :
    (Link.store own k f).rxNumber = k.rxNumber ∧ (Link.store own k f).nak = k.nak := by
  have hf : (k.free f).rxNumber = k.rxNumber ∧ (k.free f).nak = k.nak := by unfold Link.free; split <;> exact ⟨rfl, rfl⟩
  unfold Link.store; split
  · exact ⟨rfl, rfl⟩
  · split
    · exact hf
    · split
      · exact hf
      · exact ⟨rfl, rfl⟩
/-- An accepted block's NUMBER is the last received, and asks for no replay. -/
theorem Link.accept_number (own : Option Nat) (k : Link) (n : Nat) (b : List Byte) :
    (k.accept own n b).rxNumber = n ∧ (k.accept own n b).nak = false := by
  have h : ∀ (l : List Frame) (q : Link), (l.foldl (Link.store own) q).rxNumber = q.rxNumber ∧ (l.foldl (Link.store own) q).nak = q.nak := by
    intro l
    induction l with
    | nil => intro q; exact ⟨rfl, rfl⟩
    | cons f l ih => intro q; rw [List.foldl_cons, (ih _).1, (ih _).2]; exact Link.store_keeps _ _ _
  unfold Link.accept; exact h _ _

/-! ## Identifiers -/

/-- Giving an identifier changes the assigner's table alone. -/
theorem State.give_eq (s : State) (n : Nat) (id : Option Nat) :
    s.give n id = { s with fab := { s.fab with assigned := (s.give n id).fab.assigned } } := by
  unfold State.give; split <;> rfl
/-- A node that takes an identifier keeps memory, and holds it in NODE_STATE 1. -/
theorem State.takeId_some (s : State) (n : Nat) :
    (s.takeId (some n)).mem = s.mem ∧ (s.takeId (some n)).fab.nodeId = some n ∧ (s.takeId (some n)).fab.nodeState = 1 := by
  unfold State.takeId; dsimp only
  have h := State.wakeRoutes_quiet ({ s with fab := { s.fab with nodeId := some n, nodeState := 1 } } : State)
  exact ⟨h.mem, by rw [h.fab], by rw [h.fab]⟩
/-- A node that gets none is in NODE_SPACE_FULL, and nothing but the fabric and the event has changed. -/
theorem State.takeId_none (s : State) : s.takeId none = { s with fab := (s.takeId none).fab, ctl := (s.takeId none).ctl } ∧
    (s.takeId none).fab.nodeId = none ∧ (s.takeId none).fab.nodeState = 2 := by
  unfold State.takeId State.raiseIf; dsimp only
  split
  · rw [State.raise_eq]; exact ⟨rfl, rfl, rfl⟩
  · exact ⟨rfl, rfl, rfl⟩

end Sys2Proof.Machine
end

