-- ==== Sys2Proof/Laws/Answers.lean ====
section
/-! SUPPORT. What serving a request of Maltur does: which effect a request has once its checks pass, and what an answer leaves. -/
namespace Sys2Proof.Machine

/-! ## An answer -/

/-- t is s with a request answered: CTL's queue, its last answer and abort code and its output, and frames that go out. -/
structure Answered (s t : State) : Prop where
  eq : t = { s with ctl := { s.ctl with waiting := t.ctl.waiting, lastAnswered := t.ctl.lastAnswered, lastAbort := t.ctl.lastAbort,
                                        output := t.ctl.output }
                    fab := { s.fab with links := t.fab.links } }
  link : ∀ l, t.link l = { s.link l with tx := (t.link l).tx }
  txs : ∀ l, ∃ q, (t.link l).tx = (s.link l).tx ++ q

theorem Answered.refl (s : State) : Answered s s := ⟨rfl, fun _ => rfl, fun _ => ⟨[], by simp⟩⟩
theorem Answered.trans {s t u : State} (h : Answered s t) (k : Answered t u) : Answered s u := by
  refine ⟨?_, fun l => ?_, fun l => ?_⟩
  · rw [k.eq, h.eq]
  · rw [k.link l, h.link l]
  · obtain ⟨a, ha⟩ := h.txs l
    obtain ⟨b, hb⟩ := k.txs l
    exact ⟨a ++ b, by rw [hb, ha, List.append_assoc]⟩
/-- An update of CTL's queue, last answer, abort code or output. -/
theorem Answered.of_ctl {s t : State} (h : t = { s with ctl := { s.ctl with
    waiting := t.ctl.waiting, lastAnswered := t.ctl.lastAnswered, lastAbort := t.ctl.lastAbort, output := t.ctl.output } }) :
    Answered s t := by
  have e : t.fab = s.fab := by rw [h]
  have l : ∀ m, t.link m = s.link m := fun m => by unfold State.link; rw [e]
  refine ⟨?_, fun m => by rw [l m], fun m => ⟨[], by rw [l m, List.append_nil]⟩⟩
  rw [e]; exact h
theorem Answered.sendFrame (s : State) (f : Frame) : Answered s (s.sendFrame f) := by
  unfold State.sendFrame; split
  · have h := (Sends.refl s).queueFrame (s.outLink f.dest) { f with src := s.nodeNum }
    refine ⟨?_, h.link, fun l => ?_⟩
    · rw [h.eq]
    · by_cases e : l = s.outLink f.dest
      · refine ⟨[{ f with src := s.nodeNum }], ?_⟩
        subst e; simp only [State.queueFrame, State.link_setLink_self]
      · exact ⟨[], by rw [State.queueFrame_link _ _ _ _ e, List.append_nil]⟩
  · exact .refl s
theorem Answered.sendBody (s : State) (r : Route) (b : List Byte) : Answered s (s.sendBody r b) := by
  unfold State.sendBody; split
  · exact .of_ctl rfl
  · exact .sendFrame s _
theorem Answered.answerRepeats (n : Nat) : ∀ s : State, Answered s (s.answerRepeats n) := by
  induction n with
  | zero => exact .refl
  | succ n ih =>
    intro s
    unfold State.answerRepeats
    split
    · rename_i r rest q a _ _
      split
      · have h : Answered s { s with ctl := { s.ctl with waiting := rest } } := .of_ctl rfl
        exact h.trans ((Answered.sendBody _ _ _).trans (ih _))
      · exact .refl s
    · exact .refl s
/-- All that an answer does. -/
theorem Answered.answerRequest (s : State) (r : Request) (flags : Nat) (d : List Byte) : Answered s (s.answerRequest r flags d) := by
  have h : ∀ a, Answered s { s with ctl := { s.ctl with waiting := s.ctl.waiting.drop 1, lastAnswered := some (r, a) } } :=
    fun a => .of_ctl rfl
  unfold State.answerRequest
  exact (h _).trans ((Answered.sendBody _ _ _).trans (Answered.answerRepeats _ _))
theorem Answered.refuseRequest (s : State) (r : Request) (code : Nat) : Answered s (s.refuseRequest r code) := by
  have h : Answered s { s with ctl := { s.ctl with lastAbort := code } } := .of_ctl rfl
  exact h.trans (.answerRequest _ _ _ _)
/-- A write that took effect is answered at once, or later by the same command. -/
theorem State.reply_ok (s t : State) (r : Request) :
    s.reply r (.ok t) = { t with ctl := { t.ctl with acted := true, due := none, after := .none } } ∨
      s.reply r (.ok t) =
        ({ t with ctl := { t.ctl with acted := false, due := none, after := .none } } : State).answerRequest r 0 [] := by
  unfold State.reply State.effected; dsimp only; split
  · exact .inl rfl
  · exact .inr rfl
/-- So is one whose value comes into force with its response. -/
theorem State.reply_later (s t : State) (r : Request) (due : Option (Nat × Nat × Nat)) (a : After) :
    s.reply r (.later t due a) = { t with ctl := { t.ctl with acted := true, due := due, after := a } } ∨
      s.reply r (.later t due a) = t.returned r due a := by
  unfold State.reply State.effected; dsimp only; split
  · exact .inl rfl
  · exact .inr rfl
/-- What a write that took effect leaves but CTL and the frames that go out. -/
theorem State.reply_keeps (s t : State) (r : Request) : (s.reply r (.ok t)).mem = t.mem ∧ (s.reply r (.ok t)).dict = t.dict ∧
    (s.reply r (.ok t)).jrn = t.jrn ∧ (s.reply r (.ok t)).twin = t.twin ∧ (s.reply r (.ok t)).pool = t.pool ∧
    (s.reply r (.ok t)).ports = t.ports ∧ (s.reply r (.ok t)).ctxs = t.ctxs ∧ (s.reply r (.ok t)).sched = t.sched ∧
    (s.reply r (.ok t)).islands = t.islands ∧ (s.reply r (.ok t)).straps = t.straps ∧ (s.reply r (.ok t)).stash = t.stash ∧
    (s.reply r (.ok t)).prot = t.prot ∧ (s.reply r (.ok t)).ctl.mode = t.ctl.mode ∧
    (s.reply r (.ok t)).fab = { t.fab with links := (s.reply r (.ok t)).fab.links } ∧
    ∀ l, ∃ q, (s.reply r (.ok t)).link l = { t.link l with tx := (t.link l).tx ++ q } := by
  obtain h | h := s.reply_ok t r
  · rw [h]; exact ⟨rfl, rfl, rfl, rfl, rfl, rfl, rfl, rfl, rfl, rfl, rfl, rfl, rfl, rfl, fun l => ⟨[], by rw [List.append_nil]; rfl⟩⟩
  · rw [h]
    have a := Answered.answerRequest ({ t with ctl := { t.ctl with acted := false, due := none, after := .none } } : State) r 0 []
    refine ⟨by rw [a.eq], by rw [a.eq], by rw [a.eq], by rw [a.eq], by rw [a.eq], by rw [a.eq], by rw [a.eq], by rw [a.eq],
      by rw [a.eq], by rw [a.eq], by rw [a.eq], by rw [a.eq], by rw [a.eq], by rw [a.eq], fun l => ?_⟩
    obtain ⟨q, hq⟩ := a.txs l
    exact ⟨q, by rw [a.link l, hq]; rfl⟩

/-! ## A request served -/

theorem State.serveFor_front (s : State) (named : Request → Bool) (r : Request) (h : s.ctl.waiting.head? = some r)
    (hn : named r = true) : s.serveFor named = s.serve r := by
  unfold State.serveFor
  split
  · rename_i q l e
    rw [e] at h; obtain rfl : q = r := by simpa using h
    rw [if_pos hn]
  · rename_i e; rw [e] at h; simp at h
/-- A write whose checks pass has its object's effect and its reply. -/
theorem State.serve_write (s : State) (r : Request) (ha : s.ctl.acted = false) (hs : r.service = 2) (hf : r.formRefuses = none)
    (ho : s.objectRefuses r = none) : s.serve r = s.reply r (s.writeObject r.index r.sub r.value) := by
  have hw : r.asWrite = r := by unfold Request.asWrite; rw [if_neg (by omega)]
  unfold State.serve; simp only [ha, hf, hw, ho, hs]; rfl
/-- A write that one of the checks of its object refuses. -/
theorem State.serve_refused (s : State) (r : Request) (code : Nat) (ha : s.ctl.acted = false) (hs : r.service = 2)
    (hf : r.formRefuses = none) (ho : s.objectRefuses r = some code) : s.serve r = s.refuseRequest r code := by
  have hw : r.asWrite = r := by unfold Request.asWrite; rw [if_neg (by omega)]
  unfold State.serve; simp only [ha, hf, hw, ho]; rfl

end Sys2Proof.Machine
end

