-- ==== Sys2Proof/Laws/Bytes.lean ====
section
/-! SUPPORT. Laws of byte strings: lengths of encoded numbers, what a field read back is, the bounds of a checksum, and the block
trailer of R300 whose CRC always checks. -/
namespace Sys2Proof.Machine

@[simp] theorem leBytes_length (n v : Nat) : (leBytes n v).length = n := by
  induction n generalizing v with
  | zero => rfl
  | succ n ih => simp [leBytes, ih]

/-- A number's bytes read back are the number modulo 256 to their count. -/
@[simp] theorem leNat_leBytes (n v : Nat) : leNat (leBytes n v) = v % 256 ^ n := by
  induction n generalizing v with
  | zero => simp [leBytes, leNat, Nat.mod_one]
  | succ n ih =>
    simp only [leBytes, leNat, ih, BitVec.toNat_ofNat]
    rw [show (256 : Nat) ^ (n + 1) = 256 * 256 ^ n by rw [Nat.pow_succ, Nat.mul_comm], Nat.mod_mul]

theorem leNat_lt (l : List Byte) : leNat l < 256 ^ l.length := by
  induction l with
  | nil => simp [leNat]
  | cons b r ih =>
    have hb : b.toNat < 256 := b.isLt
    simp only [leNat, List.length_cons, Nat.pow_succ]
    omega

theorem leNat_append (a b : List Byte) : leNat (a ++ b) = leNat a + 256 ^ a.length * leNat b := by
  induction a with
  | nil => simp [leNat]
  | cons x r ih =>
    simp only [List.cons_append, leNat, ih, List.length_cons, Nat.pow_succ]
    rw [Nat.mul_add, Nat.mul_comm (256 ^ r.length) 256, Nat.mul_assoc, Nat.add_assoc]

/-- A field that stands behind the bytes before it reads back whole. -/
theorem fieldAt_append (a b c : List Byte) (n : Nat) (h : b.length = n) : fieldAt (a ++ (b ++ c)) a.length n = leNat b := by
  simp [fieldAt, ← h]

theorem fieldAt_last (a b : List Byte) (n : Nat) (h : b.length = n) : fieldAt (a ++ b) a.length n = leNat b := by
  simpa using fieldAt_append a b [] n h

theorem crc32c_lt (l : List Byte) : crc32c l < 2 ^ 32 := BitVec.isLt _

/-- A string followed by its CRC checks. -/
theorem crc_checks (b : List Byte) : fieldAt (b ++ leBytes 4 (crc32c b)) b.length 4 = crc32c b := by
  rw [fieldAt_last _ _ _ (leBytes_length _ _), leNat_leBytes]
  exact Nat.mod_eq_of_lt (crc32c_lt b)

/-- A block of 1,008 frame bytes with the trailer of R300 is 1,024 bytes long, and its CRC checks. -/
theorem trailer_length (k : Link) (idle : Bool) (n : Nat) (l : List Byte) (h : l.length = 1008) : (k.trailer idle n l).length = 1024 := by
  simp [Link.trailer, h]

theorem trailer_good (k : Link) (idle : Bool) (n : Nat) (l : List Byte) (h : l.length = 1008) : blockGood (k.trailer idle n l) = true := by
  have hl : ∀ b : List Byte, b.length = 0x3FC → blockGood (b ++ leBytes 4 (crc32c b)) = true := by
    intro b hb
    have h1 : (b ++ leBytes 4 (crc32c b)).take 0x3FC = b := by rw [← hb]; exact List.take_left
    have h2 := crc_checks b
    rw [hb] at h2
    simp [blockGood, h1, h2]
  exact hl _ (by simp [h])

/-- A link that trains takes nothing from a good block. -/
theorem receive_training (own : Option Nat) (k : Link) (b : List Byte) (hb : blockGood b = true) (hk : k.up = false) :
    k.receive own b = k := by simp [Link.receive, hb, hk]

/-- A block whose CRC is one too high is a bad one. -/
theorem wrong_crc_bad (b : List Byte) (h : b.length = 0x3FC) : blockGood (b ++ leBytes 4 (crc32c b + 1)) = false := by
  have h1 : (b ++ leBytes 4 (crc32c b + 1)).take 0x3FC = b := by rw [← h]; exact List.take_left
  have h2 : fieldAt (b ++ leBytes 4 (crc32c b + 1)) 0x3FC 4 = (crc32c b + 1) % 2 ^ 32 := by
    have h3 : (b ++ leBytes 4 (crc32c b + 1)).drop 0x3FC = leBytes 4 (crc32c b + 1) := by rw [← h]; exact List.drop_left
    have h5 : (256 : Nat) ^ 4 = 2 ^ 32 := rfl
    rw [fieldAt, h3, List.take_of_length_le (by simp), leNat_leBytes, h5]
  have h4 := crc32c_lt b
  simp only [blockGood, h1, h2, decide_eq_false_iff_not]
  omega

end Sys2Proof.Machine
end

