-- ==== Sys2Proof/Laws/Islands.lean ====
section
/-! SUPPORT. What the parts of an island's reset leave: the masks, the tests it abandons, the accesses it cuts. -/
namespace Sys2Proof.Machine

theorem Quiet.maskReqs {s t : State} (h : Quiet s t) (l : List Nat) : Quiet s (t.maskReqs l) := by
  unfold State.maskReqs
  exact (h.foldl (fun _ _ hu => hu.setPort _ _) _).nextFree
theorem Quiet.unmaskReqs {s t : State} (h : Quiet s t) (l : List Nat) : Quiet s (t.unmaskReqs l) := by
  unfold State.unmaskReqs
  exact h.foldl (fun _ _ hu => hu.setPort _ _) _
/-- Abandoning tests changes islands' TEST_STATUS alone. -/
theorem State.abandonTests_eq (s : State) (f : Nat → Bool) : s.abandonTests f = { s with islands := (s.abandonTests f).islands } ∧
    ∀ i, (s.abandonTests f).island i = { s.island i with testStatus := ((s.abandonTests f).island i).testStatus } := by
  unfold State.abandonTests
  generalize List.range 47 = l
  induction l generalizing s with
  | nil => exact ⟨rfl, fun _ => rfl⟩
  | cons k l ih =>
    rw [List.foldl_cons]
    obtain ⟨h1, h2⟩ := ih (if f k = true ∧ (s.island k).testStatus = 1 then s.setIsland k { s.island k with testStatus := 5 } else s)
    refine ⟨?_, fun i => ?_⟩
    · rw [h1]; split <;> rfl
    · rw [h2]; split
      · by_cases e : k = i
        · subst e; simp
        · rw [State.island_setIsland, if_neg e]
      · rfl
/-- Cutting accesses changes ports and the requests out on the fabric alone. -/
theorem State.cutAccesses_eq (s : State) (f : Nat → Owner → Bool) : s.cutAccesses f =
    { s with ports := (s.cutAccesses f).ports, fab := { s.fab with remotes := (s.cutAccesses f).fab.remotes } } := rfl
theorem State.cutInbound_eq (s : State) (l : Nat) : s.cutInbound l = { s with
    ports := (s.cutInbound l).ports, fab := { s.fab with remotes := (s.cutInbound l).fab.remotes, serving := (s.cutInbound l).fab.serving } } := rfl

end Sys2Proof.Machine
end

