-- ==== Sys2Proof/Laws/Memory.lean ====
section
/-! SUPPORT. The laws of memory: every memory operation keeps the canonical form, a write lands where it is placed, and
leaves every other byte alone. Only `land` writes memory. -/
namespace Sys2Proof.Machine

theorem memWf_nil : memWf [] := rfl

/-- `land` keeps the canonical form. -/
theorem State.memWf_land (s : State) (l : List (Nat × Byte)) (h : memWf s.mem) : memWf (s.land l).mem :=
  Tab.wf_putAll memDefault l s.mem h

/-- `writeBytes` keeps the canonical form. -/
theorem State.memWf_writeBytes (s : State) (a : Nat) (bs : List Byte) (h : memWf s.mem) : memWf (s.writeBytes a bs).mem :=
  s.memWf_land _ h

/-- An upkeep write lands with its response only. -/
theorem State.memWf_upkeepWrite (s : State) (a : Nat) (bs : List Byte) (h : memWf s.mem) : memWf (s.upkeepWrite a bs).mem := by
  rw [State.upkeepWrite_mem]; exact h

theorem placed_cons (a : Nat) (b : Byte) (bs : List Byte) : placed a (b :: bs) = (a, b) :: placed (a + 1) bs := by
  have h : ∀ (p : Nat × Byte), (a + Nat.succ p.1, p.2) = (a + 1 + p.1, p.2) := fun p => by simp; omega
  simp only [placed, List.length_cons, List.range_succ_eq_map, List.zip_cons_cons, List.map_cons, Nat.add_zero,
    List.zip_map_left, List.map_map]
  congr 1
  exact List.map_congr_left fun p _ => h p

theorem placed_key {a : Nat} {bs : List Byte} {e : Nat × Byte} (h : e ∈ placed a bs) : a ≤ e.1 ∧ e.1 < a + bs.length := by
  induction bs generalizing a with
  | nil => simp [placed] at h
  | cons b r ih =>
    rw [placed_cons] at h
    rcases List.mem_cons.1 h with rfl | h
    · simp
    · have := ih h
      simp
      omega

/-- A byte outside the written run reads as before. -/
theorem State.byteAt_writeBytes_outside (s : State) (a k : Nat) (bs : List Byte) (h : k < a ∨ a + bs.length ≤ k) :
    (s.writeBytes a bs).byteAt k = s.byteAt k :=
  s.byteAt_land_ne _ _ fun e he => by have := placed_key he; omega

theorem Tab.putAll_get_placed (d : Nat → Byte) (t : Tab Byte) (a i : Nat) (bs : List Byte) (h : i < bs.length) :
    Tab.get d (Tab.putAll d t (placed a bs)) (a + i) = bs.getD i 0 := by
  induction bs generalizing a i t with
  | nil => simp at h
  | cons b r ih =>
    rw [placed_cons, Tab.putAll]
    cases i with
    | zero =>
      rw [Tab.get_putAll_ne _ _ _ _ fun e he => by have := placed_key he; omega]
      simp
    | succ j =>
      have := ih (Tab.put d t a b) (a + 1) j (by simpa using h)
      rw [show a + (j + 1) = a + 1 + j by omega, this]
      rfl

/-- A byte of the written run reads as written. -/
theorem State.byteAt_writeBytes (s : State) (a i : Nat) (bs : List Byte) (h : i < bs.length) :
    (s.writeBytes a bs).byteAt (a + i) = bs.getD i 0 :=
  Tab.putAll_get_placed memDefault s.mem a i bs h

end Sys2Proof.Machine
end

