-- ==== Sys2Proof/Laws/Upkeep.lean ====
section
/-! SUPPORT. What JRN's upkeep writes do: the request they present, and what the anchor's bytes rest on. -/
namespace Sys2Proof.Machine

/-- A presented write joins its port's queue. -/
theorem State.present_queue (s : State) (p : Nat) (r : PortReq) :
    ((s.present p true r).port p).wr.queue = (s.port p).wr.queue ++ [{ r with since := (s.port p).cycle + 1 }] := by
  unfold State.present; rw [State.port_setPort_self]; rfl
/-- Outside the stash ranges a write goes to the memory port of its address. -/
theorem State.presentBeat_port (s : State) (r : PortReq) (a : Nat) (bs : List Byte) (p : Nat) (h : s.portOf a = some p)
    (hs : s.stashOf a = none) : s.presentBeat r a bs = s.present p true
      { r with beats := [{ addr := beatOf a, len := bs.length, side := 0, data := placed a bs, offset := 0, first := a, attempts := 0 }] } := by
  have h1 : s.stashTakes a = none := by unfold State.stashTakes; rw [hs]
  have h2 : s.countFallbacks [a] = s := by unfold State.countFallbacks; simp [hs]
  unfold State.presentBeat State.presentAt; rw [h, h1]; dsimp only; rw [h2]
theorem State.presentWrite_queue (s : State) (o : Owner) (req cls a : Nat) (bs : List Byte) (p : Nat) (h : s.portOf a = some p)
    (hs : s.stashOf a = none) :
    ∃ q, ((s.presentWrite o req cls a bs).port p).wr.queue = (s.port p).wr.queue ++ [q] ∧ q.owner = o ∧
      q.beats.flatMap (·.data) = placed a bs := by
  unfold State.presentWrite; rw [s.presentBeat_port _ _ _ _ h hs]
  exact ⟨_, State.present_queue _ _ _, rfl, by simp⟩
theorem State.syncConfig_eq (s : State) : s.syncConfig =
    { s with ports := s.syncConfig.ports, jrn := s.syncConfig.jrn, stash := s.syncConfig.stash } := by
  unfold State.syncConfig State.writeConfigImage; split
  · split
    · rfl
    · exact State.upkeepWrite_eq ..
  · rfl
/-- With no upkeep write out, one within a block of 128 B is presented at once. -/
theorem State.upkeepWrite_queue (s : State) (a : Nat) (bs : List Byte) (p : Nat) (ha : a % 128 + bs.length ≤ 128) (hn : 0 < bs.length)
    (hb : s.upkeepBusy = false) (hw : s.unitWaits jrnIsland = false) (hp : s.portOf a = some p) (hs : s.stashOf a = none) :
    ∃ q, ((s.upkeepWrite a bs).port p).wr.queue = (s.port p).wr.queue ++ [q] ∧ q.owner = .upkeep ∧
      q.beats.flatMap (·.data) = placed a bs := by
  have hbl : blocksOf a bs = [(a, bs)] := by
    unfold blocksOf
    rw [show (a % 128 + bs.length + 127) / 128 = 1 by omega]
    simp only [List.range_one, List.map_cons, List.map_nil, if_true]
    rw [List.take_of_length_le (by omega)]
  unfold State.upkeepBusy at hb
  simp only [Bool.or_eq_false_iff, Bool.not_eq_false', List.isEmpty_iff] at hb
  obtain ⟨h1, h2⟩ := hb
  have ho : ∀ l, (State.upkeepOut { s with jrn := { s.jrn with upkeep := l } } || s.unitWaits jrnIsland) = false := fun _ =>
    Bool.or_eq_false_iff.mpr ⟨h2, hw⟩
  have e : s.upkeepWrite a bs =
      ({ s with jrn := { s.jrn with upkeep := [] } } : State).presentWrite .upkeep jrnReq (s.obj 0x4031 0) a bs := by
    unfold State.upkeepWrite
    rw [hbl, h1, List.filter_cons_of_pos (by simp [hp])]
    exact if_neg (Bool.eq_false_iff.mp (ho _))
  rw [e]
  exact State.presentWrite_queue _ _ _ _ _ _ _ hp hs

@[simp] theorem anchorBytes_length (s : State) : (anchorBytes s).length = 64 := by
  unfold anchorBytes; simp only [List.length_append, leBytes_length]
/-- What the anchor's bytes depend on. -/
theorem anchorBytes_congr (s t : State) (h1 : t.jrn.epoch = s.jrn.epoch) (h2 : t.jrn.anchorState = s.jrn.anchorState)
    (h3 : t.jrn.anchorMode = s.jrn.anchorMode) (h4 : t.jrn.anchorTarget = s.jrn.anchorTarget) (h5 : t.jrn.tail = s.jrn.tail)
    (h6 : t.dict = s.dict) : anchorBytes t = anchorBytes s := by
  unfold anchorBytes ringRecords State.obj; rw [h1, h2, h3, h4, h5, h6]

end Sys2Proof.Machine
end

