-- ==== Sys2Proof/WellFormed.lean ====
section
/-! DEFINITION. Which operands a command can carry: the widths and counts of the signals, frames and objects that bring it. The
meaning of a command is total, so exec does not ask; a reader and the tests do. -/
namespace Sys2Proof

def bits (w n : Nat) : Bool := decide (n < 2 ^ w)
/-- A context of CTX (R391): 262,144 of them. -/
def ctxOk (c : Nat) : Bool := bits 18 c
/-- A channel: a context, or legacy slot k as channel 262,144 + k (R436). -/
def channelOk (c : Nat) : Bool := decide (c < 262144 + 64)
/-- A wait that DOMAIN_LIMIT ends: of a channel, or from 262,208 on of an inbound request by its place. -/
def limitOk (c : Nat) : Bool := bits 20 c
def portOk (p : Nat) : Bool := decide (p < 8)
def linkOk (l : Nat) : Bool := decide (l < 16)
def stashOk (n : Nat) : Bool := decide (n < 4)
def islandOk (i : Nat) : Bool := decide (i < 47)
def slotOk (k : Nat) : Bool := decide (k < 64)
def galleyOk (g : Nat) : Bool := bits 17 g
def wireOk (w : Nat) : Bool := decide (w < 16)
def nodeOk (n : Nat) : Bool := bits 12 n
/-- The straps of R432. -/
def Straps.wellFormed (x : Straps) : Bool :=
  bits 64 x.nodeSerial && bits 39 x.anchorAddr && decide (x.memBase.length = 8) && x.memBase.all (bits 21) &&
    decide (x.memSize.length = 8) && x.memSize.all (bits 21) && decide (x.stashBase.length = 4) && x.stashBase.all (bits 31) &&
    decide (x.stashSize.length = 4) && x.stashSize.all (bits 16)
/-- The header fields and the payload of R303 and R304. -/
def Frame.wellFormed (f : Frame) : Bool :=
  bits 8 f.type && bits 3 f.cls && bits 2 f.vl && bits 12 f.dest && bits 4 f.hops && bits 12 f.src && bits 16 f.tag && bits 51 f.word &&
    decide (f.payload.length ≤ 1024)
/-- A beacon's fields (R312). -/
def Beacon.wellFormed (b : Beacon) : Bool :=
  bits 64 b.serial && bits 64 b.rootSerial && bits 12 b.node && bits 4 b.nodeState && linkOk b.link && bits 8 b.rootDist && bits 32 b.advertSeq
/-- An advert's fields (R321). -/
def Advert.wellFormed (a : Advert) : Bool :=
  bits 64 a.serial && bits 32 a.seq && bits 12 a.node && bits 12 a.parent && decide (a.neighbours.length ≤ 16) &&
    a.neighbours.all fun n => bits 12 n.1
def Route.wellFormed (r : Route) : Bool :=
  match r with
  | .bytePort => true
  | .node n => nodeOk n
def Via.wellFormed (v : Via) : Bool :=
  match v with
  | .window id => bits 8 id
  | .dictionary => true

/-- The operands lie in the ranges that the command's source can give them. -/
def Instr.wellFormed (i : Instr) : Bool :=
  match i with
  | .doorbell id _ offset data => bits 8 id && bits 17 offset && bits 64 data
  | .contextLoad ctx victim => ctxOk ctx && ctxOk victim
  | .formeHeaderFetched ctx => ctxOk ctx
  | .itemAccepted ctx => ctxOk ctx
  | .burstIssue _ => true
  | .nop ctx => ctxOk ctx
  | .move ctx => ctxOk ctx
  | .fill ctx => ctxOk ctx
  | .proof ctx => ctxOk ctx
  | .sift ctx => ctxOk ctx
  | .decode ctx => ctxOk ctx
  | .part ctx => ctxOk ctx
  | .tally ctx => ctxOk ctx
  | .gather ctx => ctxOk ctx
  | .scatter ctx => ctxOk ctx
  | .loop ctx => ctxOk ctx
  | .endloop ctx => ctxOk ctx
  | .wait ctx => ctxOk ctx
  | .waitTimeout ctx => ctxOk ctx
  | .signalCounterAdd ctx => ctxOk ctx
  | .signalEvent ctx => ctxOk ctx
  | .signalStatusWord ctx => ctxOk ctx
  | .counterUpdate ctx => ctxOk ctx
  | .ruleStream ctx => ctxOk ctx
  | .ruleGroup ctx => ctxOk ctx
  | .ruleDevice ctx => ctxOk ctx
  | .ruleFabric ctx => ctxOk ctx
  | .link ctx => ctxOk ctx
  | .push ctx => ctxOk ctx
  | .popReturn ctx => ctxOk ctx
  | .popWait ctx => ctxOk ctx
  | .popTimeout ctx => ctxOk ctx
  | .endOp ctx => ctxOk ctx
  | .opComplete ctx => ctxOk ctx
  | .itemEnd ctx => ctxOk ctx
  | .readDataReturn port tag _ => portOk port && bits 10 tag
  | .writeResponse port tag _ _ => portOk port && bits 10 tag
  | .accessTimeout port _ tag _ => portOk port && bits 10 tag
  | .memHoldAssert port => portOk port
  | .memHoldRelease port => portOk port
  | .memHoldLong port => portOk port
  | .throttleAssert port => portOk port
  | .throttleDeassert port => portOk port
  | .domainDownRequest port => portOk port
  | .domainDown port => portOk port
  | .domainReturn port => portOk port
  | .domainLimit ctx => limitOk ctx
  | .arbitrationRound port _ _ tags => portOk port && (tags.length ≤ 32 && tags.all (bits 10))
  | .preemptionRound port _ _ tags => portOk port && (tags.length ≤ 32 && tags.all (bits 10))
  | .quotaWindowStart port => portOk port
  | .poolPiece _ => true
  | .poolSeal _ => true
  | .galleyRebuild galley => galleyOk galley
  | .poolWaitExpiry ctx => ctxOk ctx
  | .room galley => galleyOk galley
  | .journalReclaim => true
  | .journalWriteRetry => true
  | .acceptWordRetry ctx => ctxOk ctx
  | .reexecutionScan => true
  | .twinPoint src point => nodeOk src && bits 64 point
  | .twinAckTimeout => true
  | .twinLossLimit => true
  | .twinEntryLimit => true
  | .twinHello src tag epoch records => nodeOk src && bits 16 tag && bits 32 epoch && bits 64 records
  | .twinReady src _ _ point => nodeOk src && bits 64 point
  | .twinShip src tag tail _ records => nodeOk src && bits 16 tag && bits 64 tail && (1 ≤ records.length && records.length ≤ 8 && records.all fun r => r.length = 64)
  | .deviceReset straps => Straps.wellFormed straps
  | .recover => true
  | .drainEnd => true
  | .surveyEnd failed => bits 47 failed
  | .haltComplete ctx => ctxOk ctx
  | .pauseComplete ctx => ctxOk ctx
  | .abortComplete ctx => ctxOk ctx
  | .malturFrame route bytes => Route.wellFormed route && (bytes.length ≤ 1088)
  | .read => true
  | .write => true
  | .segRead => true
  | .segWrite => true
  | .commit => true
  | .discard => true
  | .notify event => 1 ≤ event && event ≤ 23
  | .objectWrite => true
  | .modeWriteHalt => true
  | .modeWriteConfig => true
  | .modeWriteFlow => true
  | .modeWriteKeep => true
  | .modeWriteTwin => true
  | .modeWriteDrain => true
  | .modeWriteRecover => true
  | .modeWriteSurvey => true
  | .drainTargetWrite => true
  | .galleyCreate => true
  | .galleyFlush => true
  | .galleyDelete => true
  | .channelPause => true
  | .channelResume => true
  | .channelAbort => true
  | .contextOpen => true
  | .contextClose => true
  | .contextFieldWrite => true
  | .format => true
  | .formatDiscard => true
  | .takeoverFreeze => true
  | .takeoverEnd => true
  | .renumber => true
  | .typeCaseCommit => true
  | .counterClear => true
  | .islandReset => true
  | .islandStateRead => true
  | .linkCtrlWrite => true
  | .retire => true
  | .test => true
  | .returnIsland => true
  | .testEnd island _ => islandOk island
  | .keyWrite => true
  | .proposedWrite => true
  | .nonceRead => true
  | .tagWrite => true
  | .protectCommit => true
  | .waitSnapshotRead => true
  | .legacyShadowWrite via slot reg data => Via.wellFormed via && slotOk slot && bits 10 reg && bits 64 data
  | .legacyStart via slot data => Via.wellFormed via && slotOk slot && bits 64 data
  | .legacyAbort via slot data => Via.wellFormed via && slotOk slot && bits 64 data
  | .legacyRunEnd slot => slotOk slot
  | .linkLock l => linkOk l
  | .linkLockLoss l => linkOk l
  | .linkBlock l bytes => linkOk l && (bytes.length = 1024)
  | .harebellSend l => linkOk l
  | .harebell l beacon => linkOk l && Beacon.wellFormed beacon
  | .beaconTimeout l => linkOk l
  | .advertSend => true
  | .advert l adv => linkOk l && Advert.wellFormed adv
  | .routeRecompute => true
  | .assignRequest l serial preferred => linkOk l && bits 64 serial && bits 16 preferred
  | .assignAnswer l serial node state => linkOk l && bits 64 serial && nodeOk node && (state ≤ 3)
  | .assignRetry => true
  | .idHoldExpiry serial => bits 64 serial
  | .frameForward l frame => linkOk l && Frame.wellFormed frame
  | .escapeWait l frame => linkOk l && Frame.wellFormed frame
  | .rdReq frame => Frame.wellFormed frame
  | .rdData frame => Frame.wellFormed frame
  | .wrReq frame => Frame.wellFormed frame
  | .wrResp frame => Frame.wellFormed frame
  | .piece frame => Frame.wellFormed frame
  | .pieceAns frame => Frame.wellFormed frame
  | .seal frame => Frame.wellFormed frame
  | .sealAns frame => Frame.wellFormed frame
  | .noticeRelease frame => Frame.wellFormed frame
  | .noticeDiscard frame => Frame.wellFormed frame
  | .noticeRoom frame => Frame.wellFormed frame
  | .noticeAns frame => Frame.wellFormed frame
  | .ruleMark frame => Frame.wellFormed frame
  | .ruleAns frame => Frame.wellFormed frame
  | .busy frame => Frame.wellFormed frame
  | .busySend src tag => nodeOk src && bits 16 tag
  | .remoteTimeout tag newTag => bits 16 tag && bits 16 newTag
  | .routeWait ctx => channelOk ctx
  | .islandResetAssert island => islandOk island
  | .islandResetRelease pins => islandOk pins.island
  | .clockLost island => islandOk island
  | .islandFault island => islandOk island
  | .powerDownRequest island => islandOk island
  | .powerDownAck island => islandOk island
  | .powerDownRelease pins => islandOk pins.island
  | .eventRound source wire => islandOk source && wireOk wire
  | .wakeLead stash => stashOk stash
  | .wakeIdle stash => stashOk stash
  | .stashTileTaken stash => stashOk stash
  | .stashTileRefused stash => stashOk stash
  | .stashFallback stash => stashOk stash
  | .testWrapRequest island => islandOk island
  | .scrub offset _ => bits 25 offset
  | .clockReturn island => islandOk island
  | .evtPulse wire => wireOk wire
  | .doorbellResponseTaken id => bits 8 id
  | .testAccessReset => true

end Sys2Proof
end

