-- ==== Sys2Proof/Tests/Slice0.lean ====
section
/-! SUPPORT. Tests and witnesses: each theorem shows a small state on which one step gives what the rules say; together they meet
the hypotheses of the statements in Certificates/Slice0/Obligations.lean, clause by clause. Expected values come from the
rules named in those statements' docstrings. -/

namespace Sys2Proof.Tests
set_option Elab.async false
open Sys2Proof Sys2Proof.Machine

/-- The next state of a command. -/
def after (i : Instr) (s : State) : Option State :=
  match exec i s with
  | .next t => some t
  | _ => none
/-- A command's next state passes a test. -/
def yields (i : Instr) (s : State) (f : State → Bool) : Bool := (after i s).any f
/-- The command answers the very state named. -/
def answersWith (i : Instr) (s t : State) : Bool := decide (after i s = some t)

/-- Window 0 grants every address, and set 0 holds it. -/
def openWindow : Protect :=
  { active := [(0x48, 255), (0x49, 255), (0x4A, 255), (0x4B, 255), (0x4C, 255), (0x4D, 255), (0x4E, 255), (0x4F, 255), (0x50, 3),
               (0x20040, 0), (0x20041, 0)] }
/-- A device in FLOW: 1 GiB at port 0, every island out of reset, every window open. -/
def base : State :=
  { State.reset with
    straps := { Straps.reset with memSize := [1, 0, 0, 0, 0, 0, 0, 0], nodeSerial := 7 }
    ctl := { mode := .flow }
    prot := openWindow
    islands := (List.range 46).map fun i => (i + 1, { inReset := false, clockPresent := true, pwrok := true }) }
/-- Context 3 is open: its ring of 16 slots of 128 B at 1_0000h, its acceptance word at 2000h. -/
def ctx3 : Ctx := { state := .idle, cached := true, f := { ringBase := 0x10000, acceptAddr := 0x2000, ringSize := 16, slotSize := 128, group := 5 } }
def withCtx (x : Ctx) : State := base.setCtx 3 x

/-! ## The machine -/

/-- The queue is taken in order, the front command runs on the rest; an empty queue idles; CLK_CTL lost stops the device (R339). -/
theorem test_step :
    (match step { base with pending := [.memHoldAssert 0, .memHoldAssert 1] } with
      | .next t => (t.port 0).hold && !(t.port 1).hold && t.pending == [.memHoldAssert 1]
      | _ => false) = true ∧
    (match step base with
      | .next t => t == base
      | _ => false) = true ∧
    (match exec (.clockLost 0) base with
      | .fault .deviceLost => true
      | _ => false) = true := by decide +kernel
/-- Reset (R54, R69): HALT, nothing in memory, in canonical form; of the written bytes only those that are not 0 are listed (log 1). -/
theorem test_reset_memory : memWf State.reset.mem ∧ State.reset.mem = [] ∧ memWf (base.writeBytes 0x10 [1, 0, 2]).mem ∧
    (base.writeBytes 0x10 [1, 0, 2]).mem = [(0x10, 1), (0x12, 2)] ∧ Tab.sortedFrom 0 State.reset.dict.staged = true := by decide +kernel

/-! ## The doorbell port and acceptance -/

/-- The journal's layout: a ring of 131,072 records at 10_0000h. -/
def keepDict : Dict := { values := [(objKey 0x9001 0, 0x100000), (objKey 0x9002 0, 131072)] }
/-- The doorbell word of context 3 and producer index p (R423). -/
def bell (p : Nat) : Nat := 3 + p * 2 ^ 32
/-- Hypotheses of DoorbellAnswersByTheFirstCase. -/
def bellReady (id : Nat) (s : State) : Bool := s.portTakes id && !(s.ctx 3).closing && (s.ctx 3).bells.isEmpty
/-- R72: a context in the cache takes the range up to 2 and answers nothing yet; R25: one outside it keeps the doorbell back. -/
theorem test_doorbell_announces : bellReady 9 (withCtx ctx3) = true ∧
    yields (.doorbell 9 true 0 (bell 2)) (withCtx { ctx3 with header := .got }) (fun t =>
      (t.ctx 3).producer == 2 && (t.ctx 3).bells.length == 1 && t.sched.dbOut.isEmpty) = true ∧
    yields (.doorbell 9 true 0 (bell 2)) (withCtx { ctx3 with cached := false }) (fun t =>
      (t.ctx 3).early == [(9, 2)] && (t.ctx 3).producer == 0 && t.sched.dbOut.isEmpty) = true := by decide +kernel
/-- R72: a closed context answers outcome 2, the index tests 0 with BAD_DOORBELL, outside the traffic modes 1. -/
theorem test_doorbell_refused : bellReady 9 base = true ∧
    yields (.doorbell 9 true 0 (bell 2)) base (fun t => t.sched.dbOut == [Claims.answer base 9 3 2]) = true ∧
    yields (.doorbell 9 true 0 (bell 17)) (withCtx ctx3) (fun t =>
      t.sched.dbOut == [Claims.answer base 9 3 0] && Tab.get zeroTab t.ctl.eventCount 2 == 1) = true ∧
    yields (.doorbell 9 true 0 (bell 2)) { withCtx ctx3 with ctl := { mode := .config } } (fun t =>
      t.sched.dbOut == [Claims.answer base 9 3 1]) = true := by decide +kernel
/-- R72: a header halt answers 4, an exhausted stream 3, the producer's own index 0. -/
theorem test_doorbell_stops :
    yields (.doorbell 9 true 0 (bell 2)) (withCtx { ctx3 with headerHalt := true, state := .halted }) (fun t =>
      t.sched.dbOut == [Claims.answer base 9 3 4]) = true ∧
    yields (.doorbell 9 true 0 (bell 2)) (withCtx { ctx3 with exhausted := true }) (fun t =>
      t.sched.dbOut == [Claims.answer base 9 3 3]) = true ∧
    yields (.doorbell 9 true 0 (bell 0)) (withCtx ctx3) (fun t => t.sched.dbOut == [Claims.answer base 9 3 0]) = true := by decide +kernel
/-- R421: offset 8 is undefined, a read of offset 0 gives 0; R420: the response leaves and frees its identifier. -/
theorem test_doorbell_port : base.portTakes 9 = true ∧
    yields (.doorbell 9 true 0xFFFF 5) base (fun t => t.sched.dbOut == [⟨9, none, 0, true⟩]) = true ∧
    yields (.doorbell 9 false 0 5) base (fun t => t.sched.dbOut == [⟨9, none, 0, false⟩]) = true ∧
    yields (.doorbellResponseTaken 9) { base with sched := { dbOut := [⟨9, none, 0, true⟩], dbOutstanding := [9, 4] } }
      (fun t => t.sched.dbOut.isEmpty && t.sched.dbOutstanding == [4]) = true := by decide +kernel
/-- R25: room takes a context in; a full cache gives up an idle victim. -/
def fullCache : State := { base with ctxs := (List.range 4096).map fun i => (i, { state := .idle, cached := true }) }
theorem test_context_load_room :
    yields (.contextLoad 3 0) (withCtx { ctx3 with cached := false }) (fun t => (t.ctx 3).cached) = true ∧
    (let s := (withCtx { ctx3 with cached := false }).setIsland ctxIsland { inReset := false }
     s.unitWaits ctxIsland = true ∧ answersWith (.contextLoad 3 0) s s = true) ∧ base.unitWaits ctxIsland = false := by decide +kernel
theorem test_context_load_full :
    (¬ (fullCache.setCtx 5000 { ctx3 with cached := false }).cachedCount < 4096) ∧
    yields (.contextLoad 5000 4095) (fullCache.setCtx 5000 { ctx3 with cached := false }) (fun t =>
      (t.ctx 5000).cached && !(t.ctx 4095).cached) = true ∧
    yields (.contextLoad 5000 4095) ((fullCache.setCtx 5000 { ctx3 with cached := false }).setCtx 4095 { state := .running, cached := true })
      (fun t => !(t.ctx 5000).cached && (t.ctx 4095).cached) = true := by decide +kernel

/-- A forme block's header at slot 0 of context 3's ring: OWN, OP_COUNT 1, SEQ. -/
def slotBytes (own n seq : Nat) : State := (withCtx { ctx3 with header := .got, producer := 1, bells := [{ id := 9, upto := 1, refused := 0 }] }).writeBytes 0x10000
  (leBytes 1 own ++ leBytes 1 n ++ leBytes 6 0 ++ leBytes 8 seq)
def headerOk (s : State) : Bool :=
  decide ((s.ctx 3).header = .got) && (s.ctx 3).accepting.isEmpty && (s.ctx 3).items.isEmpty && decide ((s.ctx 3).producer ≠ (s.ctx 3).consumer)
def fetched (s : State) (f : State → Bool) : Bool := headerOk s && yields (.formeHeaderFetched 3) s f
/-- R77: a ring outside the windows, a block without OWN, one too long for its slot halt the channel. -/
theorem test_header_halts :
    fetched { slotBytes 1 1 1 with prot := {} } (fun t => (t.ctx 3).headerHalt && (t.ctx 3).record.status == 0x13 &&
      t.sched.dbOut == [Claims.answer base 9 3 4]) = true ∧
    fetched (slotBytes 0 1 1) (fun t => (t.ctx 3).headerHalt && (t.ctx 3).record.status == 0x14) = true ∧
    fetched (slotBytes 1 3 1) (fun t => (t.ctx 3).headerHalt && (t.ctx 3).record.status == 0x14) = true := by decide +kernel
/-- R35, R36, R77: sequence 0 is refused, the last sequence exhausts the stream, CONFIG does not accept. -/
theorem test_header_refuses :
    fetched (slotBytes 1 2 0) (fun t => (t.ctx 3).refused == 1 && (t.ctx 3).consumer == 1 && (t.ctx 3).items.isEmpty) = true ∧
    fetched (slotBytes 1 2 (2 ^ 64 - 1)) (fun t => (t.ctx 3).exhausted && t.sched.dbOut == [Claims.answer base 9 3 3]) = true ∧
    fetched { slotBytes 1 2 1 with ctl := { mode := .config } } (fun t => (t.ctx 3).producer == 0 &&
      t.sched.dbOut == [Claims.answer base 9 3 1]) = true := by decide +kernel
/-- R33: in FLOW the item goes on to acceptance, in KEEP its ACCEPT record is issued first. -/
theorem test_header_accepts :
    fetched (slotBytes 1 2 1) (fun t => (t.ctx 3).accepting == [⟨1, 0, 0x10000, 0, none⟩]) = true ∧
    admits { slotBytes 1 2 1 with ctl := { mode := .keep }, dict := keepDict } .accept = true ∧
    fetched { slotBytes 1 2 1 with ctl := { mode := .keep }, dict := keepDict } (fun t =>
      ((t.ctx 3).accepting.map (·.jpos)) == [some 0] && t.jrn.head == 1) = true := by decide +kernel
/-- R32: the acceptance is published once its durability is reached, and not before. -/
theorem test_item_accepted :
    yields (.itemAccepted 3) (withCtx { ctx3 with producer := 1, accepting := [⟨5, 0, 0x10000, 0, none⟩] }) (fun t =>
      (t.ctx 3).accepted == 5 && (t.ctx 3).consumer == 1 && (t.ctx 3).items.map (·.seq) == [5]) = true ∧
    (withCtx ctx3).acceptable ⟨5, 0, 0x10000, 0, some 7⟩ = false ∧
    ((withCtx ctx3).setCtx 4 { ctx3 with accepting := [⟨9, 0, 0x10000, 0, some 6⟩] }).publishTurn ⟨5, 0, 0x10000, 0, some 7⟩ = false ∧
    answersWith (.itemAccepted 3) (withCtx { ctx3 with producer := 1, accepting := [⟨5, 0, 0x10000, 0, some 7⟩] })
      (withCtx { ctx3 with producer := 1, accepting := [⟨5, 0, 0x10000, 0, some 7⟩] }) = true := by decide +kernel

/-! ## Well-formed commands -/

/-- Each of these breaks one check, and the check refuses it. -/
def illFormed : List Instr :=
  [.doorbell 256 true 0 0, .doorbell 0 true 131072 0, .doorbell 0 true 0 (2 ^ 64), .contextLoad 262144 0, .contextLoad 0 262144, .nop 262144,
   .domainLimit 1048576, .memHoldAssert 8, .readDataReturn 0 1024 false, .arbitrationRound 0 true 0 (List.replicate 33 0),
   .arbitrationRound 0 true 0 [1024], .preemptionRound 8 true 0 [], .room 131072, .twinPoint 4096 0, .twinPoint 0 (2 ^ 64),
   .twinHello 0 65536 0 0, .twinHello 0 0 (2 ^ 32) 0, .twinShip 0 0 0 false [], .twinShip 0 0 0 false [[1]], .twinShip 0 0 (2 ^ 64) false []] ++
  [.surveyEnd (2 ^ 47), .malturFrame (.node 4096) [], .malturFrame .bytePort (List.replicate 1089 0), .notify 0, .notify 24, .testEnd 47 true,
   .legacyShadowWrite (.window 256) 0 0 0, .legacyShadowWrite .dictionary 64 0 0, .legacyShadowWrite .dictionary 0 1024 0,
   .legacyStart .dictionary 0 (2 ^ 64), .legacyRunEnd 64, .linkLock 16, .linkBlock 0 [1], .routeWait 262208, .eventRound 0 16, .wakeLead 4,
   .scrub (2 ^ 25) true, .assignRequest 0 (2 ^ 64) 0, .assignRequest 0 0 65536, .assignAnswer 0 0 4096 1, .assignAnswer 0 0 0 4] ++
  [.deviceReset { Straps.reset with nodeSerial := 2 ^ 64 }, .deviceReset { Straps.reset with anchorAddr := 2 ^ 39 },
   .deviceReset { Straps.reset with memBase := [] }, .deviceReset { Straps.reset with memBase := List.replicate 8 (2 ^ 21) },
   .deviceReset { Straps.reset with memSize := [] }, .deviceReset { Straps.reset with memSize := List.replicate 8 (2 ^ 21) },
   .deviceReset { Straps.reset with stashBase := [] }, .deviceReset { Straps.reset with stashBase := List.replicate 4 (2 ^ 31) },
   .deviceReset { Straps.reset with stashSize := [] }, .deviceReset { Straps.reset with stashSize := List.replicate 4 65536 }] ++
  ([{ type := 256 }, { type := 1, cls := 8 }, { type := 1, vl := 4 }, { type := 1, dest := 4096 }, { type := 1, hops := 16 }, { type := 1, src := 4096 },
    { type := 1, tag := 65536 }, { type := 1, word := 2 ^ 51 }, { type := 1, payload := List.replicate 1025 0 }] : List Frame).map .rdReq ++
  ([⟨2 ^ 64, 0, 0, 0, 0, 0, 0⟩, ⟨0, 2 ^ 64, 0, 0, 0, 0, 0⟩, ⟨0, 0, 4096, 0, 0, 0, 0⟩, ⟨0, 0, 0, 16, 0, 0, 0⟩, ⟨0, 0, 0, 0, 16, 0, 0⟩,
    ⟨0, 0, 0, 0, 0, 256, 0⟩, ⟨0, 0, 0, 0, 0, 0, 2 ^ 32⟩] : List Beacon).map (.harebell 0) ++
  ([⟨2 ^ 64, 0, 0, 0, []⟩, ⟨0, 2 ^ 32, 0, 0, []⟩, ⟨0, 0, 4096, 0, []⟩, ⟨0, 0, 0, 4096, []⟩, ⟨0, 0, 0, 0, List.replicate 17 (0, true)⟩,
    ⟨0, 0, 0, 0, [(4096, true)]⟩] : List Advert).map (.advert 0)
theorem test_ill_formed_refused : illFormed.all (fun i => !i.wellFormed) = true := by decide +kernel
theorem test_well_formed :
    ([.doorbell 9 true 0 (bell 2), .move 3, .deviceReset base.straps, .domainLimit 262208, .routeWait 262207,
      .arbitrationRound 7 false 100 [1, 1023], .malturFrame .bytePort [0x7E], .legacyStart (.window 9) 63 1, .notify 23, .scrub 8 false,
      .twinShip 2 9 4 false [List.replicate 64 0], .harebell 15 ⟨9, 7, 4, 1, 3, 1, 1⟩] : List Instr).all Instr.wellFormed = true := by decide +kernel

/-! ## The data ops -/

/-- An item at its first op, of a block at 4000h with two ops, the operand structures read. -/
def item0 : Item := { seq := 1, slotAddr := 0x4000, blockAddr := 0x4000, opCount := 2, fetch := .got, structIdx := 9 }
def running (it : Item) : Ctx := { ctx3 with state := .running, items := [it] }
/-- Context 3 runs the op whose bytes are given. -/
def prog (it : Item) (op : List Byte) : State := (withCtx (running it)).writeBytes 0x4040 (op ++ List.replicate (32 - op.length) 0)
def item1 (s : State) (f : Item → Bool) : Bool := (s.item 3).any f
/-- The op is in front of context 3, with the run named. -/
def isFront (s : State) (code : Nat) (run : Bool) : Bool :=
  (s.front 3).any fun e => opcodeOf e.2 == code && e.1.run.isSome == run
def op8 (code a b c : Nat) : List Byte := leBytes 1 code ++ leBytes 7 0 ++ leBytes 8 a ++ leBytes 8 b ++ leBytes 8 c
/-- A COL2 descriptor of one line of n bytes at an address (R125). -/
def col2 (base n : Nat) : List Byte := leBytes 8 2 ++ leBytes 8 base ++ leBytes 4 n ++ leBytes 4 1 ++ leBytes 40 0
/-- The op at 4040h with patterns for 16 bytes at 8000h and at 9000h. -/
def patterned (op : List Byte) (n m : Nat) : State := ((prog item0 op).writeBytes 0x5000 (col2 0x8000 n)).writeBytes 0x5040 (col2 0x9000 m)
def begins (i : Instr) (code : Nat) (s : State) (f : OpRun → Bool) : Bool :=
  isFront s code false && yields i s fun t => item1 t fun x => x.run.any f
/-- R124, R129, R134: MOVE begins with its total; an unequal total is BAD_PATTERN, zero work completes. -/
theorem test_move_begins :
    begins (.move 3) 1 (patterned (op8 1 0x5000 0x5040 0) 16 16) (fun r => r.total == 16 && r.serial == 0) = true ∧
    yields (.move 3) (patterned (op8 1 0x5000 0x5040 0) 16 17) (fun t => (t.ctx 3).faults == [{ status := .badPattern, detail := 2 ^ 48 + 17 }]) = true ∧
    yields (.move 3) (patterned (op8 1 0x5000 0x5040 0) 0 16) (fun t => item1 t (·.opDone)) = true := by decide +kernel
/-- R136: FILL of 3 pattern bytes; a FILL_LEN of 9 is undefined. -/
theorem test_fill_begins :
    begins (.fill 3) 2 (patterned (leBytes 4 2 ++ leBytes 4 3 ++ leBytes 8 0x434241 ++ leBytes 8 0x5040) 0 16)
      (fun r => r.op == .fill [0x41, 0x42, 0x43] (.pattern ⟨16, 0x9000, 1, 1, 1, 0, 0, 0⟩)) = true ∧
    yields (.fill 3) (patterned (leBytes 4 2 ++ leBytes 4 9 ++ leBytes 8 0 ++ leBytes 8 0x5040) 0 16)
      (fun t => (t.ctx 3).faults.map (·.status) == [.badOp]) = true := by decide +kernel
/-- R138, R146: PROOF and DECODE begin with the bytes of their first side. -/
theorem test_proof_and_decode_begin :
    begins (.proof 3) 3 (patterned (op8 3 0x5000 0x5040 0xA000) 16 16) (fun r => r.total == 16) = true ∧
    begins (.decode 3) 5 (patterned (op8 5 0x5000 0x5040 0xB000) 16 16) (fun r => r.total == 16) = true := by decide +kernel
/-- R141, R144: SIFT of two rows of 8 B under a predicate of four terms that always pass. -/
theorem test_sift_begins :
    begins (.sift 3) 4 ((patterned (leBytes 4 4 ++ leBytes 4 8 ++ leBytes 8 0x5000 ++ leBytes 8 0x5040 ++ leBytes 8 0x6000) 16 16).writeBytes 0x6000
        (leBytes 8 0 ++ leBytes 8 0xA000 ++ leBytes 48 0x080000 ++ leBytes 48 0x080000 ++ leBytes 48 0x080000 ++ leBytes 48 0x080000))
      (fun r => r.total == 16) = true := by decide +kernel
/-- R198, R201: PART of rows of 8 B by a 4 B key into two destinations. -/
theorem test_part_begins :
    begins (.part 3) 6 (((patterned (leBytes 4 6 ++ leBytes 4 8 ++ leBytes 8 0x5000 ++ leBytes 8 0x6000 ++ leBytes 8 0xA000) 16 0).writeBytes 0x6000
        (leBytes 8 0x010400 ++ leBytes 8 0 ++ leBytes 8 0x6040)).writeBytes 0x6040 (leBytes 8 0x0000000200000001))
      (fun r => r.total == 16) = true ∧
    yields (.part 3) ((((prog { item0 with pushOrd := 2 ^ 32 - 1 }
          (leBytes 4 6 ++ leBytes 4 8 ++ leBytes 8 0x5000 ++ leBytes 8 0x6000 ++ leBytes 8 0xA000)).writeBytes 0x5000 (col2 0x8000 16)).writeBytes 0x6000
        (leBytes 8 0x010400 ++ leBytes 8 0 ++ leBytes 8 0x6040)).writeBytes 0x6040 (leBytes 8 0x0000000200000001))
      (fun t => (t.ctx 3).faults.map (·.status) == [.badOp]) = true := by decide +kernel
/-- R211: TALLY of rows of 8 B. -/
theorem test_tally_begins :
    begins (.tally 3) 7 ((patterned (leBytes 4 7 ++ leBytes 4 8 ++ leBytes 8 0x5000 ++ leBytes 8 0x6000 ++ leBytes 8 0xA000) 16 0).writeBytes 0x6000
        (leBytes 8 0x010000)) (fun r => r.total == 16) = true := by decide +kernel
/-- R148, R150: GATHER and SCATTER of one element of 16 B. -/
theorem test_gather_and_scatter_begin :
    begins (.gather 3) 8 ((patterned (leBytes 4 8 ++ leBytes 4 1 ++ leBytes 8 0x6000 ++ leBytes 8 0x5040) 0 16).writeBytes 0x6000
        (leBytes 8 0x7000 ++ leBytes 8 16)) (fun r => r.total == 16) = true ∧
    begins (.scatter 3) 9 ((patterned (leBytes 4 9 ++ leBytes 4 1 ++ leBytes 8 0x5000 ++ leBytes 8 0x6000) 16 0).writeBytes 0x6000
        (leBytes 8 0x7000 ++ leBytes 8 16)) (fun r => r.total == 16) = true := by decide +kernel

/-- An op whose data is complete. -/
def runOf (op : Op) (n : Nat) : OpRun := { op := op, serial := 4, total := n, cut := n, done := n }
def s16 (a : Nat) : Side := lineSide a 16
def ends (i : Instr) (code : Nat) (op : Op) (phase : OpPhase) (f : State → Bool) : Bool :=
  let s := prog { item0 with run := some { runOf op 16 with phase := phase } } (leBytes 1 code)
  isFront s code true && (s.settle 3).pickLane false [] == some 0 && yields i s fun t => f t && item1 t (·.opDone)
/-- R80, R81: the ops with a destination end, and their item has moved 16 bytes. -/
theorem test_mapped_ops_end :
    ([(.move 3, 1, .move (s16 0x8000) (s16 0x9000)), (.fill 3, 2, .fill [1] (s16 0x9000)),
      (.decode 3, 5, .decode 1 (s16 0x8000) (s16 0x9000) []), (.gather 3, 8, .gather (.elements [(0x8000, 16)]) (s16 0x9000)),
      (.scatter 3, 9, .scatter (s16 0x8000) (.elements [(0x9000, 16)]))] : List (Instr × Nat × Op)).all (fun e =>
        e.2.2.dest.isSome && ends e.1 e.2.1 e.2.2 .data fun t => item1 t fun x => x.moved && x.delivered == 16) = true := by decide +kernel
def sift0 : Op := .sift 8 false (s16 0x8000) (s16 0x9000) ⟨false, false, false, 0xA000, []⟩
def part0 : Op := .part 8 (s16 0x8000) ⟨0, 4, 1, false, 0, 0, [1, 2]⟩ 0xA000
/-- R138, R145, R205, R213: the ops with a result block leave it to SCHED as their next burst. -/
theorem test_result_ops_wait :
    (((.proof 3, 3, .proof false (s16 0x8000) (s16 0x9000) 0xA000, .data) : Instr × Nat × Op × OpPhase) ::
      (.sift 3, 4, sift0, .data) :: (.part 3, 6, part0, .sealing) :: []).all (fun e =>
        let s := prog { item0 with run := some { runOf e.2.2.1 16 with phase := e.2.2.2 } } (leBytes 1 e.2.1)
        isFront s e.2.1 true && yields e.1 s fun t => decide (t.ports = s.ports) && item1 t fun x => !x.opDone && x.run.any (·.phase = .result)) = true := by
  decide +kernel
/-- A PROOF that has only its result block left to write. -/
def resultLeft : State := prog { item0 with run := some { runOf (.proof false (s16 0x8000) (s16 0x9000) 0xA000) 16 with phase := .result } } [3]
/-- R220: BURST_ISSUE gives the block a lane, and it goes out as one write at A000h. -/
theorem test_result_burst :
    resultLeft.pickChannel 10 = some 3 ∧ resultLeft.pickLane false [] = some 0 ∧
    (match resultLeft.nextBurst 3 with
      | some (.result r a) => r.total == 16 && a == 0xA000 && (resultLeft.obstacle (resultLeft.setOf 3) true (lineSide a r.resultBytes.length) 1 0 r.resultBytes.length).isNone
      | _ => false) = true ∧
    yields (.burstIssue 10) resultLeft (fun t => (t.port 0).wr.queue.map (fun r => (r.owner, r.requester, r.beats.map (·.addr))) ==
      [(.result 3 4, 0, [0xA000])] && item1 t (·.opDone)) = true := by decide +kernel

/-- A device whose lanes all run, with a MOVE of 300 bytes in front of context 3. -/
def burstState : State :=
  withCtx { running { item0 with run := some { op := .move (lineSide 0x8000 300) (lineSide 0x9000 300), serial := 4, total := 300 } } with
    f := { ctx3.f with share := 64 } }
/-- R131, R220, R222: the first segment goes out, its reads at port 0, and NEXT rises by its 3 beats at SHARE 64. -/
theorem test_burst_issue :
    burstState.pickChannel 10 = some 3 ∧ burstState.pickLane false [] = some 0 ∧
    (match burstState.nextBurst 3 with
      | some (.segment _ g) => g.lo == 0 && g.hi == 300
      | _ => false) = true ∧
    yields (.burstIssue 10) burstState (fun t => (t.run 3).any (fun q => q.segs.length == 1 && q.cut == 300) &&
      (t.port 0).rd.queue.length == 1 && (t.ctx 3).next256 == 2560 + 3 * 65536 / 64) = true := by decide +kernel
/-- R212, R199 on the rules' own terms. -/
theorem test_row_values :
    (({ keyOff := 0, valOff := 1, valWidth := 1, signed := true, dotA := 0, dotB := 0, dotEn := false, aSigned := false, bSigned := false,
        selEn := false, sel := 0, part := none } : TallyDesc).add {} [5, 0xFF]) = { count := 1, sum := -1, min := some (-1), max := some (-1), dot := 0 } ∧
    fillBytes [0x41, 0x42, 0x43] 0 5 = [0x41, 0x42, 0x43, 0x41, 0x42] ∧
    (⟨0, 4, 12, false, 0, 0, []⟩ : PartDesc).dest [1, 2, 3, 4] < 4096 := by decide +kernel

/-! ## The steering ops -/

/-- An op of one of the three layouts in front of context 3. -/
def steer (it : Item) (op : List Byte) : State := prog { item0 with loops := it.loops, counterOp := it.counterOp, openPacket := it.openPacket } op
def badOpHalt (i : Instr) (s : State) : Bool := yields i s fun t => (t.ctx 3).halting && (t.ctx 3).faults.map (·.status) == [.badOp]
def doneAt (i : Instr) (s : State) : Bool := yields i s fun t => item1 t (·.opDone)
def frame0 : LoopFrame := ⟨0, 2, 0, 1, -1⟩
/-- R89, R90: NOP and END are done at once; an END inside a loop is BAD_OP. -/
theorem test_nop_and_end : isFront (steer {} [0]) 0 false = true ∧ doneAt (.nop 3) (steer {} [0]) = true ∧
    doneAt (.endOp 3) (steer {} [0x1F]) = true ∧ badOpHalt (.endOp 3) (steer { loops := [frame0] } [0x1F]) = true ∧
    badOpHalt (.endOp 3) (steer { openPacket := some (1, 0) } [0x1F]) = true := by decide +kernel
/-- R91, R92: LOOP with COUNT 5, SRC_ADV 1 and DST_ADV −1; the fourth is BAD_OP. -/
theorem test_loop : isFront (steer {} [0x10]) 0x10 false = true ∧
    yields (.loop 3) (steer {} (leBytes 4 0x10 ++ leBytes 4 5 ++ leBytes 6 1 ++ leBytes 6 (2 ^ 48 - 1))) (fun t =>
      item1 t fun x => x.opDone && x.loops == [⟨0, 5, 0, 1, -1⟩]) = true ∧
    badOpHalt (.loop 3) (steer { loops := [frame0, frame0, frame0] } (leBytes 4 0x10 ++ leBytes 4 5)) = true := by decide +kernel
/-- R92, R93: ENDLOOP begins the next pass at the op after the LOOP, then closes the frame; with none open it is BAD_OP. -/
theorem test_endloop :
    yields (.endloop 3) (steer { loops := [frame0, frame0] } [0x11]) (fun t =>
      item1 t fun x => x.loops == [frame0, { frame0 with pass := 1 }] && x.nextIdx == some 1) = true ∧
    yields (.endloop 3) (steer { loops := [frame0, { frame0 with pass := 1 }] } [0x11]) (fun t => item1 t fun x => x.loops == [frame0]) = true ∧
    badOpHalt (.endloop 3) (steer {} [0x11]) = true := by decide +kernel
/-- R95, R96: LINK goes on at 6000h and counts the fuse, stops at the fuse, and is BAD_OP inside a loop. -/
theorem test_link :
    yields (.link 3) (steer {} (leBytes 8 0x15 ++ leBytes 8 0x6000)) (fun t => (t.ctx 3).fuse == 1 && item1 t fun x => x.nextBlock == some 0x6000) = true ∧
    yields (.link 3) ((steer {} (leBytes 8 0x15 ++ leBytes 8 0x6000)).modCtx 3 fun x => { x with fuse := 255 }) (fun t =>
      (t.ctx 3).faults.map (fun f => (f.status, f.detail)) == [(.linkLoop, 0x6000)]) = true ∧
    badOpHalt (.link 3) (steer { loops := [frame0] } (leBytes 8 0x15 ++ leBytes 8 0x6000)) = true := by decide +kernel
def read7 : CounterOp := { group := 5, counter := 0, value := 0, old := some 7 }
def wait7 (cond v : Nat) : State := steer { counterOp := some read7 } (leBytes 4 0x12 ++ leBytes 2 0 ++ leBytes 2 cond ++ leBytes 8 v)
/-- R99, R100: counter value 7 against conditions 0 (at least) and 1 (equal). -/
theorem test_wait : doneAt (.wait 3) (wait7 0 7) = true ∧ doneAt (.wait 3) (wait7 1 7) = true ∧
    yields (.wait 3) (wait7 0 8) (fun t => (t.ctx 3).state == .waiting && (t.ctx 3).waitOn == some (.counter 5 0 8 0 7)) = true ∧
    yields (.wait 3) (wait7 1 6) (fun t => (t.ctx 3).waitOn == some (.counter 5 0 6 1 7)) = true ∧
    doneAt (.wait 3) (steer { counterOp := some { read7 with news := [8, 9] } } (leBytes 4 0x12 ++ leBytes 2 0 ++ leBytes 2 1 ++ leBytes 8 8)) = true := by decide +kernel
/-- R100: WAIT_TIMEOUT with the value last read. -/
theorem test_wait_timeout :
    yields (.waitTimeout 3) ((prog item0 (leBytes 16 0x12 ++ leBytes 4 9)).modCtx 3 fun x => { x with state := .waiting, waitOn := some (.counter 5 0 8 0 7) })
      (fun t => (t.ctx 3).waitOn == none && (t.ctx 3).faults == [{ status := .waitTimeout, detail := 7 }]) = true := by decide +kernel

def signal (kind counter v a group wire : Nat) : List Byte :=
  leBytes 4 0x13 ++ leBytes 1 kind ++ leBytes 1 0 ++ leBytes 2 counter ++ leBytes 8 v ++ leBytes 8 a ++ leBytes 2 group ++ leBytes 1 wire
def keep (s : State) : State := { s with ctl := { s.ctl with mode := .keep }, dict := keepDict }
def signalReady (s : State) : Bool := isFront s 0x13 false && s.streamAcked 3 && !s.held 3
/-- R104 to R108: an addend of 0 reads nothing, EVENT posts its wire, a STATUS_WORD is kept in KEEP. -/
theorem test_signals : signalReady (steer {} (signal 0 2 0 0 0 0)) = true ∧
    doneAt (.signalCounterAdd 3) (steer {} (signal 0 2 0 0 0 0)) = true ∧
    yields (.signalEvent 3) (steer {} (signal 1 0 0 0 0 15)) (fun t => t.postsOf schedIsland 15 == 1 && item1 t (·.opDone)) = true ∧
    signalReady (keep (steer {} (signal 2 0 9 0x7000 0 0))) = true ∧
    yields (.signalStatusWord 3) (keep (steer {} (signal 2 0 9 0x7000 0 0))) (fun t => item1 t fun x => x.words == [⟨0x7000, 9⟩]) = true := by
  decide +kernel
/-- R346: with 32,767 events of the source not yet taken the EVENT waits. -/
theorem test_event_waits :
    answersWith (.signalEvent 3) { steer {} (signal 1 0 0 0 0 15) with ctl := { mode := .flow, posts := [(postKey 1 15, 32767)] } }
      { steer {} (signal 1 0 0 0 0 15) with ctl := { mode := .flow, posts := [(postKey 1 15, 32767)] } } = true := by decide +kernel
/-- COUNTER_ADD of 9 waits for a lane. -/
def adding : State := steer { counterOp := some { group := 5, counter := 2, value := 9, old := none } } (signal 0 2 9 0 0 0)
/-- R106, R220: COUNTER_ADD hands SCHED an update, and BURST_ISSUE reads its counter on lane 0 under its lock; R98: the sum, modulo
2^64, is written once the read has returned. -/
theorem test_counter_add :
    yields (.signalCounterAdd 3) (steer {} (signal 0 2 9 0 0 0)) (fun t => (t.port 0).rd.queue.isEmpty &&
      item1 t fun x => x.counterOp == some { group := 5, counter := 2, value := 9, old := none }) = true ∧
    adding.pickChannel 10 = some 3 ∧ adding.pickLane true [] = some 0 ∧ adding.portOf (adding.counterAddr 5 2) = some 0 ∧
    (match adding.nextBurst 3 with
      | some (.counter k) => k.value == 9
      | _ => false) = true ∧
    yields (.burstIssue 10) adding (fun t =>
      (t.port 0).rd.queue.map (fun r => (r.owner, r.locked, r.requester)) == [(.counterRead 3, true, 0)] &&
      item1 t fun x => x.counterOp.any fun k => k.group == 5 && k.counter == 2 && k.value == 9 && k.issued && k.lane == 0) = true ∧
    yields (.counterUpdate 3) (prog { item0 with counterOp := some { group := 5, counter := 2, value := 9, old := some (2 ^ 64 - 1) } } [0x13]) (fun t =>
      (t.port 0).wr.queue.map (fun r => r.beats.map fun b => b.data.map (·.2)) == [[leBytes 8 8]]) = true := by decide +kernel

def rule (k : Nat) : List Byte := leBytes 4 0x14 ++ leBytes 2 k ++ leBytes 2 65535 ++ leBytes 8 0
def ruleCmds : List (Nat × Instr) := [(0, .ruleStream 3), (1, .ruleGroup 3), (2, .ruleDevice 3), (3, .ruleFabric 3)]
/-- R109 to R112: with no earlier op each RULE is done at once. -/
theorem test_rules_complete : (ruleCmds.all fun e => ruleOk (rule e.1 ++ List.replicate 20 0) && ((prog item0 (rule e.1)).setNodes 0).isEmpty &&
    doneAt e.2 (prog item0 (rule e.1))) = true := by decide +kernel
/-- A write of op 8 of context 3 is still out. -/
def busy3 (s : State) : State :=
  s.setPort 0 { wr := { out := [⟨1, false, .opWrite 3 8 0, 0, 4, false, none, ⟨0x9000, 16, 0, [], 0, 0x9000, 0⟩⟩] } }
/-- R110, R111: a write not yet answered holds a RULE of every scope. -/
theorem test_rules_wait : (ruleCmds.all fun e => yields e.2 (busy3 (prog item0 (rule e.1))) fun t =>
    t.sched.rules.map (fun r => (r.ctx, r.scope, r.earlier)) == [(3, e.1, [(3, 8)])] && item1 t (!·.opDone)) = true := by decide +kernel

/-- A RULE of context 3 that stands. -/
def standing (l : OpSet) (s : State) : State := { s with sched := { s.sched with rules := [{ ctx := 3, serial := 0, scope := 0, group := 5, earlier := l, nodes := [] }] } }
/-- R109, R110, R112: an undefined GROUP is BAD_OP; a FABRIC RULE sends node 5 of its set a marker and stands; a RULE that stands completes
once its earlier ops are acknowledged, and stands on before. -/
theorem test_rules_stand :
    badOpHalt (.ruleGroup 3) (prog item0 (leBytes 4 0x14 ++ leBytes 2 1 ++ leBytes 2 5000)) = true ∧
    yields (.ruleFabric 3) { prog item0 (rule 3) with dict := { nodeSets := [(0, [0x20])] } } (fun t => t.sched.rules.map (·.nodes) == [[5]] &&
      t.fab.remotes.map (fun r => (r.owner, r.frame.type, r.frame.dest)) == [(.ruleMark 3 5, 0x1A, 5)] && item1 t (!·.opDone)) = true ∧
    yields (.ruleStream 3) (standing [(3, 2)] (prog item0 (rule 0))) (fun t => t.sched.rules.isEmpty && item1 t (·.opDone)) = true ∧
    answersWith (.ruleStream 3) (standing [(3, 8)] (busy3 (prog item0 (rule 0)))) (standing [(3, 8)] (busy3 (prog item0 (rule 0)))) = true := by
  decide +kernel
/-- R426: in a stash range the sum of a counter goes to the stash port. -/
theorem test_counter_in_stash :
    (let s : State := { prog { item0 with counterOp := some { group := 5, counter := 2, value := 9, old := some 7 } } [0x13] with
       straps := { base.straps with stashSize := [4, 0, 0, 0] } }
     s.stashTakes (s.counterAddr 5 2) = some 0 ∧ yields (.counterUpdate 3) s (fun t => decide (t.ports = s.ports) &&
       (t.stashPort 0).tiles.map (fun r => (r.owner, r.beats.map fun b => b.data.map (·.2))) == [(.counterWrite 3, [leBytes 8 16])]) = true) := by decide +kernel

/-- R88, R241: a NOP that is done gives way to the next op, an END ends the program. -/
theorem test_op_complete :
    (prog { item0 with opDone := true } [0]).opSettled 3 { item0 with opDone := true } ((prog { item0 with opDone := true } [0]).opBytes { item0 with opDone := true }) = true ∧
    yields (.opComplete 3) (prog { item0 with opDone := true } [0]) (fun t => item1 t fun x => x.opIdx == 1 && !x.opDone) = true ∧
    yields (.opComplete 3) (prog { item0 with opDone := true } [0x1F]) (fun t => item1 t fun x => x.ended && !x.opDone) = true := by decide +kernel
def endItem (it : Item) (f : State → Bool) : Bool := yields (.itemEnd 3) (withCtx (running { it with ended := true })) f
/-- R80, R82: the status of the end in FLOW, the publication, and the event of the slot's FLAGS. -/
theorem test_item_end :
    endItem item0 (fun t => item1 t fun x => x.ending == some .words && x.endStatus == 1) = true ∧
    endItem { item0 with moved := true } (fun t => item1 t fun x => x.endStatus == 0) = true ∧
    endItem { item0 with mismatch := some (0, 0, 5) } (fun t => item1 t fun x => x.endStatus == 3) = true ∧
    endItem { item0 with ending := some .own, sent := true } (fun t => (t.ctx 3).completed == 1 && item1 t fun x => x.ending == some .notify) = true ∧
    endItem { item0 with ending := some .notify, slotFlags := 0x2A } (fun t => (t.ctx 3).items.isEmpty && t.postsOf schedIsland 10 == 1) = true ∧
    yields (.itemEnd 3) (withCtx { running { item0 with ended := true, ending := some .notify, slotFlags := 0x2A } with header := .got })
      (fun t => t.postsOf schedIsland 10 == 1) = true := by
  decide +kernel

/-! ## PUSH, POP and POOL -/

/-- A pool of 64 cells at 2000_0000h, its mark table at 1000_0000h, and item galley 5 of 8-byte items. -/
def pooled (y : Galley) (s : State) : State :=
  ({ s with dict := { values := [(objKey 0x7000 0, 0x20000000), (objKey 0x7001 0, 64), (objKey 0x7003 0, 0x10000000),
      (objKey 0x7004 0, 8), (objKey 0x9001 0, 0x100000), (objKey 0x9002 0, 131072)] } }).setGalley 5 y
def g8 : Galley := { state := .active, width := 8 }
def d1 : List Byte := [1, 2, 3, 4, 5, 6, 7, 8]
/-- Two entries in cell 2. -/
def e1 : Entry := { cells := [2], length := 8, seq := 4 }
def e2 : Entry := { cells := [2], offset := 8, length := 8, seq := 5 }
def g2 : Galley :=
  { g8 with entries := [e1, e2], heads := [e1.ref, e2.ref], cells := [2], tailLen := some 16, headA := some 2, headB := some 2, tailA := some 2, tailB := some 2 }
def pushOp (n flags : Nat) : List Byte := leBytes 4 0x16 ++ leBytes 4 5 ++ leBytes 8 0x8000 ++ leBytes 4 n ++ leBytes 1 flags
/-- R115, R116: PUSH of nothing, of two items, of 12 bytes onto 8-byte items. -/
theorem test_push_begins :
    isFront (pooled g8 (prog item0 (pushOp 16 0))) 0x16 false = true ∧ (pooled g8 (prog item0 (pushOp 16 0))).galleyLocal 5 = true ∧
    doneAt (.push 3) (pooled g8 (prog item0 (pushOp 0 0))) = true ∧
    yields (.push 3) (pooled g8 (prog item0 (pushOp 16 0))) (fun t => item1 t fun x => x.run.any fun r => r.total == 16 && r.ordBase == 0) = true ∧
    yields (.push 3) (pooled g8 (prog item0 (pushOp 12 0))) (fun t =>
      (t.ctx 3).faults.map (fun f => (f.status, f.detail)) == [(.badPattern, 4 * 2 ^ 48 + 5)]) = true := by decide +kernel
/-- R115, R162: an OPEN piece begins a packet with its own ordinal, one without OPEN goes on with that of the open packet. -/
theorem test_packet_pieces :
    yields (.push 3) (pooled { g8 with packet := true } (prog { item0 with pushOrd := 4 } (pushOp 12 1))) (fun t => item1 t fun x =>
      x.openPacket == some (5, 4) && x.run.any fun r => r.total == 12 && r.ordBase == 4) = true ∧
    (pooled { g8 with packet := true } base).sameGalley 5 5 = true ∧
    yields (.push 3) (pooled { g8 with packet := true } (prog { item0 with pushOrd := 5, openPacket := some (5, 4) } (pushOp 12 0))) (fun t =>
      item1 t fun x => x.openPacket == some (5, 4) && x.run.any fun r => r.total == 12 && r.ordBase == 4) = true := by decide +kernel
/-- R205: the seal answered, the PUSH has delivered its 16 bytes. -/
theorem test_push_ends :
    yields (.push 3) (prog { item0 with run := some { runOf (.push 5 0x8000 16 false true false) 16 with phase := .sealing } } (pushOp 16 0))
      (fun t => item1 t fun x => x.opDone && x.moved && x.delivered == 16) = true := by decide +kernel

def popOp (maxLen mode timeout : Nat) : List Byte :=
  leBytes 4 0x17 ++ leBytes 4 5 ++ leBytes 8 0x8000 ++ leBytes 4 maxLen ++ leBytes 8 0x9000 ++ leBytes 1 mode ++ leBytes 3 timeout
def popState (y : Galley) (mode : Nat) : State := pooled y (prog item0 (popOp 8 mode 7))
/-- The parts of popReady that are not by construction. -/
def popTests (mode : Nat) (s : State) : Bool :=
  isFront s 0x17 false && (s.front 3).any (fun e => s.popOk e.2 && fieldAt e.2 0x1C 1 == mode && fieldAt e.2 0x10 4 == 8 &&
    (s.popObstacle 3 e.2 8).isNone && e.1.popWait.isNone) && !s.held 3
/-- R118, R178, R180: the head entry leaves the galley, and POOL is to read its 8 bytes; in KEEP the entry stays under a pop mark. -/
def popTaken (t : State) : Bool :=
  item1 t (fun x => x.popWait.isSome && !x.opDone && x.popped.isNone) && (t.galley 5).heads == [e2.ref] &&
    t.pool.jobs.getLast? == some (.payload 3 1 5 [2] 0 8 false)
theorem test_pop_takes :
    popTests 0 (popState g2 0) = true ∧ (popState g2 0).popEntry 3 item0 5 = some e1 ∧
    yields (.popReturn 3) (popState g2 0) (fun t => (t.galley 5).entries == [e2] && popTaken t) = true ∧
    yields (.popWait 3) (popState g2 1) (fun t => (t.galley 5).entries == [e2] && popTaken t) = true ∧
    yields (.popReturn 3) { popState g2 0 with ctl := { mode := .keep } } (fun t =>
      (t.galley 5).entries == [{ e1 with heldBy := some (3, 1, 0), markSlot := 1 }, e2] && popTaken t) = true := by decide +kernel
/-- R118, R181: on the empty galley RETURN has POOL read the last popped entry again, or gives no byte, with UNDERRUN; WAIT waits. -/
theorem test_pop_empty :
    popTests 1 (popState g8 1) = true ∧ (popState { g8 with lastPopped := some e1 } 0).popEntry 3 item0 5 = none ∧
    yields (.popReturn 3) (popState { g8 with lastPopped := some e1 } 0) (fun t => (t.galley 5).underruns == 1 &&
      item1 t (fun x => x.popWait.isSome) && t.pool.jobs.getLast? == some (.payload 3 1 5 [2] 0 8 true)) = true ∧
    yields (.popReturn 3) (popState g8 0) (fun t => (t.galley 5).underruns == 1 &&
      item1 t fun x => x.opDone && x.popped == some ([], true)) = true ∧
    yields (.popWait 3) (popState g8 1) (fun t => (t.ctx 3).state == .waiting && (t.ctx 3).waitOn == some (.pop 5)) = true := by decide +kernel
/-- R118: the payload that POOL has read goes to DEST and RESULT; with MAX_LEN 0 nothing is taken. -/
def popRead (mode : Nat) : State := pooled g8 (prog { item0 with popped := some (d1, false) } (popOp 8 mode 7))
theorem test_pop_writes :
    popTests 0 (popRead 0) = true ∧ popTests 1 (popRead 1) = true ∧
    ([(popRead 0, .popReturn 3), (popRead 1, .popWait 3)] : List (State × Instr)).all (fun e => yields e.2 e.1 fun t =>
      item1 t (fun x => x.opDone && x.popOrd == 1 && x.popped == some (d1, false) && x.delivered == 8) &&
      (t.port 0).wr.queue.map (fun r => r.beats.map fun b => (b.addr, b.len)) == [[(0x8000, 8)], [(0x9000, 16)]]) = true ∧
    yields (.popReturn 3) (pooled g2 (prog item0 (popOp 0 0 7))) (fun t => (t.galley 5).entries == [e1, e2] &&
      item1 t fun x => x.opDone && x.popOrd == 1) = true := by decide +kernel
/-- Context 3 waits at galley 5 for cells or for the mark table, under a POOL_WAIT. -/
def poolWaiting (w : WaitOn) (limit : Nat) : State :=
  ({ (popState g8 1) with dict := { values := [(objKey 0x7005 0, limit)] } }).modCtx 3 fun x =>
    { x with state := .waiting, waitOn := some w }
/-- R118, R175, R184: the waits end with their statuses. -/
theorem test_galley_waits_end :
    yields (.popTimeout 3) ((popState g8 1).modCtx 3 fun x => { x with state := .waiting, waitOn := some (.pop 5) })
      (fun t => (t.ctx 3).faults.map (fun f => (f.status, f.detail)) == [(.waitTimeout, 5)]) = true ∧
    ([.emptyPool 5, .fullMarks 5] : List WaitOn).all (fun w => yields (.poolWaitExpiry 3) (poolWaiting w 9)
      (fun t => (t.ctx 3).faults.map (fun f => (f.status, f.detail)) == [(.poolEmpty, 5)])) = true ∧
    answersWith (.poolWaitExpiry 3) (poolWaiting (.emptyPool 5) 0) (poolWaiting (.emptyPool 5) 0) = true := by decide +kernel

def piece1 : Piece := { galley := 5, stream := ⟨0, 3⟩, seq := 1, ord := 0, attempt := 0, marked := false, data := List.replicate 16 7, serial := 4 }
def unit1 : OpenUnit := { stream := ⟨0, 3⟩, seq := 1, ord := 0, attempt := 0, parts := [(0, d1 ++ d1)], staged := false, cells := [], stored := [0] }
def poolWith (y : Galley) (ps ss : List Piece) : State :=
  let s := pooled y base
  { s with pool := { s.pool with pieces := ps, seals := ss } }
/-- R167, R168, R170: a piece opens a unit in a buffer. -/
theorem test_pool_piece :
    (poolWith g8 [piece1] []).buffersUsed = 0 ∧ yields (.poolPiece 0) (poolWith g8 [piece1] []) (fun t =>
      (t.galley 5).units == [{ unit1 with parts := [(0, List.replicate 16 7)] }] && (t.galley 5).entries.isEmpty) = true := by decide +kernel
/-- R177: a piece of a higher ATTEMPT discards the item's open unit on another galley. -/
theorem test_higher_attempt :
    yields (.poolPiece 0) ((poolWith g8 [{ piece1 with attempt := 2, marked := true }] []).setGalley 6
        { g8 with units := [{ unit1 with ord := 1, attempt := 1 }] }) (fun t =>
      (t.galley 6).units.isEmpty && (t.galley 5).units.map (·.attempt) == [2]) = true := by decide +kernel
/-- R182, R183, R184: a piece that would pass LIMIT is refused and waits on a full galley. -/
theorem test_refused_pieces_wait :
    (let r : OpRun := { op := .push 5 0 16 true true false, serial := 4, total := 16, segs := [{ lo := 0, hi := 16, state := .sent }] }
     let s := pooled { g8 with limit := 1 } (withCtx (running { item0 with run := some r }))
     yields (.poolPiece 0) { s with pool := { s.pool with pieces := [piece1] } } (fun t =>
       (t.ctx 3).waitOn == some (.fullGalley 5) && (t.galley 5).units.isEmpty &&
       item1 t (fun x => x.run.any fun q => q.segs.map (fun g => (g.state, g.refusals)) == [(.refused, [0])]))) = true := by decide +kernel
/-- R168, R169: in FLOW the sealed unit's two items stand in the galley, in one new cell; R173: in KEEP the seal is under way. -/
def seal1 : Piece := { piece1 with data := [], pieceNo := 1 }
def sealState (m : Mode) : State := { poolWith { g8 with units := [unit1] } [] [seal1] with ctl := { mode := m } }
theorem test_pool_seal :
    (sealState .flow).canDraw 5 1 = true ∧ (sealState .flow).sealable seal1 = true ∧ (sealState .flow).pieceAct seal1 = .join ∧
    yields (.poolSeal 0) (sealState .flow) (fun t =>
      (t.galley 5).entries == [{ cells := [0], length := 8, seq := 1, stream := ⟨0, 3⟩ }, { cells := [0], offset := 8, length := 8, seq := 1, stream := ⟨0, 3⟩ }] &&
      (t.galley 5).units.isEmpty && (t.galley 5).cells == [0] && (t.galley 5).tailLen == some 16) = true ∧
    yields (.poolSeal 0) (sealState .keep) (fun t => (t.galley 5).entries.isEmpty && (t.galley 5).units == [unit1] &&
      (t.galley 5).sealing.map (·.piece) == some seal1 && t.pool.jobs.getLast? == some (.sealEnd 5)) = true := by decide +kernel
/-- R191: POOL reads the descriptor of a galley that rebuilds; after a FLUSH record the galley holds the held entries alone. -/
def rebuilding : State :=
  let s := poolWith { g8 with state := .rebuilding, entries := [{ e1 with heldBy := some (3, 1, 0) }, e2] } [] []
  { s with ctl := { mode := .keep }, jrn := { s.jrn with log := [{ kind := .flush, galley := 5, pos := 2 }] } }
theorem test_galley_rebuild :
    yields (.galleyRebuild 5) rebuilding (fun t => t.pool.jobs == [.rebuild 5] && t.pool.busy) = true ∧
    (let t := ({ rebuilding with pool := { rebuilding.pool with jobs := [.rebuild 5], busy := true } } : State).poolFinish
     (t.galley 5).state == .active && (t.galley 5).entries == [{ e1 with heldBy := some (3, 1, 0) }]) = true := by decide +kernel
/-- R183, R184: room wakes the channel that waits for it. -/
theorem test_room :
    (pooled g8 (withCtx { running item0 with state := .waiting, waitOn := some (.fullGalley 5) })).roomNow (.fullGalley 5) = true ∧
    yields (.room 5) (pooled g8 (withCtx { running item0 with state := .waiting, waitOn := some (.fullGalley 5) })) (fun t =>
      (t.ctx 3).state == .running && (t.ctx 3).waitOn == none) = true := by decide +kernel

/-! ## The memory ports -/

def beat0 : Beat := ⟨0x9000, 16, 0, [(0x9000, 5), (0x9001, 6)], 0, 0x9000, 0⟩
def req0 (c cls : Nat) : PortReq :=
  { owner := .opWrite c 4 0, requester := c, cls := cls, beats := [beat0, { beat0 with addr := 0x9080 }, { beat0 with addr := 0x9100 },
    { beat0 with addr := 0x9180 }], presented := some 3, locked := false, block := none, parked := false }
def acc0 (o : Owner) : Access := ⟨5, false, o, 3, 4, false, none, beat0⟩
/-- A request for the read port, one side of a MOVE. -/
def port0 (q : Port) : State := (withCtx (running item0)).setPort 0 q
/-- R224, R355, R359, R360: the sidebands and the quota window. -/
theorem test_sidebands :
    yields (.memHoldAssert 0) base (fun t => (t.port 0).hold) = true ∧
    yields (.memHoldRelease 0) (port0 { hold := true, holdLongRaised := true }) (fun t => !(t.port 0).hold && !(t.port 0).holdLongRaised) = true ∧
    yields (.throttleAssert 1) base (fun t => (t.port 1).throttle) = true ∧
    yields (.throttleDeassert 0) (port0 { throttle := true, rd := { leadUntil := 9 } }) (fun t =>
      !(t.port 0).throttle && (t.port 0).rd.leadUntil == 0) = true ∧
    yields (.quotaWindowStart 0) (port0 { quota0 := 5, quota1 := 6 }) (fun t => (t.port 0).quota0 == 0 && (t.port 0).quota1 == 0) = true := by
  decide +kernel
/-- R347, R358: HOLD over an absent clock pauses what stands at the port; its release hangs it. -/
theorem test_hold_and_clock :
    yields (.memHoldAssert 0) ((port0 { wr := { queue := [{ req0 3 4 with hung := true }] } }).setIsland 18 { inReset := false }) (fun t =>
      (t.port 0).hold && (t.island 18).clockPaused && (t.port 0).wr.queue.map (·.hung) == [false]) = true ∧
    yields (.memHoldRelease 0) ((port0 { hold := true, wr := { queue := [req0 3 4] } }).setIsland 18 { inReset := false, clockPaused := true })
      (fun t => !(t.port 0).hold && !(t.island 18).clockPaused && (t.port 0).wr.queue.map (·.hung) == [true]) = true ∧
    answersWith (.memHoldLong 0) base base = true := by decide +kernel
/-- R410: while the port's island takes no input, nothing is answered; R361: a begun locked read keeps the domain up. -/
theorem test_port_takes_nothing :
    (let s := (port0 { rd := { out := [acc0 (.opRead 3 8 0)] }, wr := { out := [acc0 (.opWrite 3 8 0)] } }).setIsland 18 { inReset := true }
     answersWith (.writeResponse 0 5 false true) s s = true ∧ answersWith (.readDataReturn 0 5 false) s s = true) ∧
    (let s := port0 { qreq := true, rd := { queue := [{ req0 3 4 with locked := true, holds := true }] } }
     (s.port 0).rd.queue.any s.lockBegun = true ∧ answersWith (.domainDown 0) s s = true) := by decide +kernel
/-- R359: MEM_HOLD_LONG once for one assertion. -/
theorem test_hold_long :
    base.obj 0x3120 0 ≠ 0 ∧
    yields (.memHoldLong 0) (port0 { hold := true }) (fun t => Tab.get zeroTab t.ctl.eventCount 14 == 1 && (t.port 0).holdLongRaised) = true ∧
    answersWith (.memHoldLong 0) (port0 { hold := true, holdLongRaised := true }) (port0 { hold := true, holdLongRaised := true }) = true := by
  decide +kernel
/-- R264, R361, R362: QREQ stalls the channel that needs the port, QACK follows once drained, the return clears both. -/
theorem test_domains :
    (port0 { wr := { queue := [req0 3 4] } }).domainNeeds 0 = [(3, 0x9000, 0)] ∧ base.domainNeeds 0 = [] ∧
    yields (.domainDownRequest 0) (port0 { wr := { queue := [req0 3 4] } }) (fun t => (t.port 0).qreq &&
      (t.ctx 3).state == .waiting && (t.ctx 3).waitOn == some (.domain 0 0x9000 0)) = true ∧
    yields (.domainDownRequest 0) base (fun t => (t.port 0).qreq) = true ∧
    yields (.domainDown 0) (port0 { qreq := true }) (fun t => (t.port 0).qack) = true ∧
    answersWith (.domainDown 0) (busy3 (withCtx (running item0))) (busy3 (withCtx (running item0))) = true ∧
    yields (.domainReturn 0) (port0 { qreq := true, qack := true }) (fun t => !(t.port 0).qreq && !(t.port 0).qack) = true := by decide +kernel
/-- R264, R306, R446: DOMAIN_LIMIT ends the stall with DOMAIN_DOWN, of a channel and of a slot, and turns a request of another node
away; its default is 0. -/
theorem test_domain_limit :
    yields (.domainLimit 3) ({ withCtx { running item0 with state := .waiting, waitOn := some (.domain 0 0x9000 7) } with
        dict := { values := [(objKey 0x3130 0, 5)] } }) (fun t => (t.ctx 3).halting && (t.ctx 3).waitOn == none &&
      (t.ctx 3).faults.map (fun f => (f.status, f.detail, f.cause, f.offset)) == [(.domainDown, 0x9000, 6, 7)]) = true ∧
    yields (.domainLimit 262149) (({ base with dict := { values := [(objKey 0x3130 0, 5)] } } : State).setSlot 5
      { base.slot 5 with stalled := some (.domain 0 0x9000 7) }) (fun t => (t.slot 5).stalled == none &&
      (t.slot 5).faults.map (fun f => (f.status, f.detail, f.cause, f.offset)) == [(.domainDown, 0x9000, 6, 7)]) = true ∧
    answersWith (.domainLimit 3) (withCtx (running item0)) (withCtx (running item0)) = true ∧
    yields (.domainLimit 262208) { base with dict := { values := [(objKey 0x3130 0, 5)] }, fab := { base.fab with serving := [{ type := 1, src := 9 }] } }
      (fun t => t.fab.serving.isEmpty) = true := by decide +kernel
/-- R225: the slot's class where one asks, else the highest class. -/
theorem test_round_winner :
    (winner 6 [req0 3 4, req0 5 6, req0 7 2]).map (·.cls) = some 6 ∧ (winner 5 [req0 3 4, req0 5 6, req0 7 2]).map (·.cls) = some 2 ∧
    (winner 0x80 [req0 3 4, req0 5 6]).map (·.cls) = some 4 ∧ (winner 0x80 [req0 9 4, req0 5 4]).map (·.requester) = some 5 := by decide +kernel
/-- R225, R229: the winner owns the channel two cycles on, with tags; the next requests are parked. -/
theorem test_arbitration :
    (base.island (portIsland 0)).unreachable = false ∧
    yields (.arbitrationRound 0 true 10 [77]) (port0 { wr := { queue := [req0 3 4, req0 5 2] } }) (fun t =>
      (t.port 0).wr.owner.map (fun g => (g.req.requester, g.firstBeat, g.lastBeat, g.tags)) == some (5, 12, 15, [77, 0, 1, 2]) &&
      (t.port 0).wr.slot == 1 && (t.port 0).wr.queue.map (fun r => (r.requester, r.parked)) == [(3, true)]) = true := by decide +kernel
def grant0 : Grant := { cls := 6, locked := false, requester := 9, firstBeat := 12, lastBeat := 20, tags := [0, 1, 2, 3, 4, 5, 6, 7, 8], req := req0 9 6 }
/-- R231, R232: class 2 preempts class 6 after the beat of the deciding cycle. -/
theorem test_preemption :
    bitOf (base.obj 0x4030 0) 2 = false ∧
    yields (.preemptionRound 0 true 13 []) ({ port0 { wr := { queue := [req0 5 2], owner := some grant0 } } with
        dict := { values := [(objKey 0x4030 0, 7)] } }) (fun t =>
      (t.port 0).wr.owner.map (fun g => (g.req.requester, g.firstBeat)) == some (5, 15) &&
      (t.port 0).wr.queue.map (fun r => (r.requester, r.parked)) == [(9, true)]) = true := by decide +kernel

/-- R256, R257, R415, R417: write responses. -/
theorem test_write_response :
    base.obj 0x4010 0 = 3 ∧ (port0 { wr := { out := [acc0 (.opWrite 3 8 0)] } }).readsStopped (.opWrite 3 8 0) = false ∧
    yields (.writeResponse 0 5 false true) (port0 { wr := { out := [acc0 (.opWrite 3 8 0)] } }) (fun t =>
      t.byteAt 0x9000 == 5 && t.byteAt 0x9001 == 6 && t.byteAt 0x9002 == 0 && (t.port 0).wr.out.isEmpty) = true ∧
    yields (.writeResponse 0 5 true false) (port0 { wr := { out := [acc0 (.opWrite 3 8 0)] } }) (fun t => t.mem.isEmpty &&
      (t.port 0).wr.queue.map (fun r => r.beats.map (·.attempts)) == [[1]]) = true ∧
    answersWith (.writeResponse 0 9 false true) base (base.islandFault (portIsland 0)) = true := by decide +kernel
/-- R256, R258, R414, R417: read data. -/
theorem test_read_data :
    yields (.readDataReturn 0 5 true) (port0 { rd := { out := [acc0 (.opRead 3 8 0)] } }) (fun t =>
      (t.port 0).rd.queue.map (fun r => r.beats.map (·.attempts)) == [[1]]) = true ∧
    yields (.readDataReturn 0 5 false) (((withCtx (running { item0 with counterOp := some { group := 5, counter := 2, value := 9 } })).setPort 0
        { rd := { out := [acc0 (.counterRead 3)] } }).writeBytes 0x9000 (leBytes 8 1234)) (fun t =>
      item1 t fun x => x.counterOp.any fun k => k.old == some 1234) = true ∧
    yields (.readDataReturn 0 5 false) (port0 { rd := { retired := [5, 6] } }) (fun t => (t.port 0).rd.retired == [6]) = true ∧
    answersWith (.readDataReturn 0 5 false) base (base.islandFault (portIsland 0)) = true := by decide +kernel
/-- R256 to R258: a read's timeout retires its tag; none expires under HOLD. -/
theorem test_access_timeout :
    base.obj 0x3100 0 ≠ 0 ∧
    yields (.accessTimeout 0 false 5 false) (port0 { rd := { out := [acc0 (.opRead 3 8 0)] } }) (fun t =>
      (t.port 0).rd.retired == [5] && (t.port 0).rd.out.isEmpty && (t.port 0).rd.queue.length == 1) = true ∧
    yields (.accessTimeout 0 true 5 false) (port0 { wr := { out := [acc0 (.opWrite 3 8 0)] } }) (fun t =>
      (t.port 0).wr.out.map (·.discard) == [true] && (t.port 0).wr.queue.map (fun r => r.beats.map (·.attempts)) == [[1]]) = true ∧
    answersWith (.accessTimeout 0 false 5 false) (port0 { hold := true, rd := { out := [acc0 (.opRead 3 8 0)] } })
      (port0 { hold := true, rd := { out := [acc0 (.opRead 3 8 0)] } }) = true := by decide +kernel

/-! ## The journal and the twin -/

def accept5 : Record := { kind := .accept, ctx := 3, seq := 5, slotAddr := 0x10000, pos := 7, epoch := 1, node := 2 }
/-- KEEP, the reclaim point at the ACCEPT record of item 5 of context 3. -/
def reclaiming (its : List Item) (tail : Nat) : State :=
  let s := withCtx { ctx3 with items := its }
  { keep s with jrn := { head := 9, epoch := 2, reclaim := 7, tail := tail, log := [accept5] }, dict := { values := [(objKey 0x9001 0, 0x100000),
      (objKey 0x9002 0, 64)] } }
/-- R273, R278: an ACCEPT record of a complete item is passed, of a live one carried; the point passes it with its copy in the ring. -/
theorem test_reclaim :
    yields .journalReclaim (reclaiming [] 6) (fun t => t.jrn.reclaim == 8 && t.jrn.head == 9 && t.jrn.tail == 6) = true ∧
    yields .journalReclaim (reclaiming [] 4) (fun t => t.jrn.tail == 8) = true ∧
    admits (reclaiming [{ item0 with seq := 5 }] 6) .counter = true ∧
    yields .journalReclaim (reclaiming [{ item0 with seq := 5 }] 6) (fun t => t.jrn.reclaim == 7 && t.jrn.head == 10 && t.jrn.copy == some 9 &&
      t.jrn.inFlight == [{ accept5 with carried := true, pos := 9, epoch := 2 }]) = true := by decide +kernel
/-- R278: a copy at position 8, in the ring and on its way. -/
def copying (waits : List Record) : State :=
  let s := reclaiming [{ item0 with seq := 5 }] 6
  { s with jrn := { s.jrn with copy := some 8, inFlight := waits } }
theorem test_reclaim_copy :
    (copying []).inRing 8 = true ∧ yields .journalReclaim (copying []) (fun t => t.jrn.reclaim == 8 && t.jrn.copy.isNone && t.jrn.head == 9) = true ∧
    (copying [{ accept5 with pos := 8 }]).inRing 8 = false ∧
    answersWith .journalReclaim (copying [{ accept5 with pos := 8 }]) (copying [{ accept5 with pos := 8 }]) = true := by decide +kernel
/-- R279: the anchor's write answered, the positions below TAIL are free. -/
theorem test_tail_written :
    yields (.writeResponse 0 5 false true) ((reclaiming [] 6).setPort 0 { wr := { out := [acc0 .upkeep] } }) (fun t =>
      t.jrn.tailWritten == 6 && freePositions t == 61) = true := by decide +kernel
/-- R263, R270: the retries present the write again; R282: the scan's end lets the item run. -/
theorem test_retries :
    yields .journalWriteRetry { base with jrn := { base.jrn with failed := [req0 3 4 |> fun r => { r with beats := [beat0] }] } } (fun t =>
      t.jrn.failed.map (·.posted) == [true] && (t.port 0).wr.queue.length == 1) = true ∧
    yields (.acceptWordRetry 3) (withCtx { ctx3 with wordRetry := true, accepted := 9 }) (fun t => !(t.ctx 3).wordRetry &&
      (t.port 0).wr.queue.map (fun r => (r.owner, r.beats.map (fun b => (b.addr, (b.data.map (·.1)).head?)))) ==
        [(.acceptWord 3, [(0x2000, some 0x2000)])]) = true ∧
    yields .reexecutionScan { withCtx { ctx3 with items := [{ seq := 5, slotAddr := 0x4000 }] } with jrn := { base.jrn with scanWait := [3] } }
      (fun t => t.jrn.scanWait.isEmpty && (t.ctx 3).state == .running) = true := by decide +kernel
/-- R426: a word and a shipped record whose place is in a stash range go to the stash port. -/
def stashed (s : State) : State := { s with straps := { s.straps with stashSize := [4, 0, 0, 0] } }
theorem test_word_in_stash :
    (let s := stashed (withCtx { ctx3 with wordRetry := true, accepted := 9 })
     s.stashTakes 0x2000 = some 0 ∧ yields (.acceptWordRetry 3) s (fun t => !(t.ctx 3).wordRetry && decide (t.ports = s.ports) &&
       (t.stashPort 0).tiles.length == 1) = true) := by decide +kernel
/-- R281: an epoch that the scan waits for may open. -/
def epochDue : State := { reclaiming [] 6 with jrn := { (reclaiming [] 6).jrn with epochDue := true, scanWait := [3] } }
theorem test_epoch_due : epochDue.jrn.epochDue = true ∧ admits epochDue .epoch = true := by decide +kernel

def twin (t : Twin) (s : State) : State :=
  { s with ctl := { s.ctl with mode := .twin }, twin := t, jrn := { s.jrn with head := 9 }
           dict := { values := [(objKey 0x9001 0, 0x100000), (objKey 0x9002 0, 64), (objKey 0x9020 0, 2)] } }
/-- R285, R286: the twin point rises and never falls. -/
theorem test_twin_point :
    (twin { held := true, point := 3 } base).shipping = true ∧
    yields (.twinPoint 2 5) (twin { held := true, point := 3 } base) (fun t => t.twin.point == 5 && t.twin.state == 1) = true ∧
    answersWith (.twinPoint 2 2) (twin { held := true, point := 3 } base) (twin { held := true, point := 3 } base) = true := by decide +kernel
/-- R288, R67: an unanswered shipment makes the twin unreachable; the loss is raised once. -/
theorem test_twin_loss :
    (twin { held := true, point := 3, state := 1 } base).unshipped = true ∧ (base.obj 0x9023 0) ≠ 0 ∧
    yields .twinAckTimeout (twin { held := true, point := 3, state := 1 } base) (fun t => t.twin.state == 2) = true ∧
    answersWith .twinAckTimeout (twin { held := true, point := 8, state := 1 } base) (twin { held := true, point := 8, state := 1 } base) = true ∧
    (twin { held := true, state := 2 } base).twinLost = true ∧
    yields .twinLossLimit (twin { held := true, state := 2 } base) (fun t => t.twin.unreachableRaised &&
      Tab.get zeroTab t.ctl.eventCount 10 == 1) = true ∧
    answersWith .twinLossLimit (twin { held := true, state := 2, unreachableRaised := true } base)
      (twin { held := true, state := 2, unreachableRaised := true } base) = true := by decide +kernel
/-- A keeper of node 2's shadow: 64 records at 20_0000h. -/
def keeper (t : Twin) : State :=
  { base with twin := t, dict := { values := [(objKey 0x9030 0, 2), (objKey 0x9031 0, 0x200000), (objKey 0x9032 0, 64)] } }
/-- R284: the handshake from both sides. -/
theorem test_handshake :
    (keeper {}).serves 2 = true ∧
    yields (.twinHello 2 1 6 64) (keeper {}) (fun t => t.twin.shadowEpoch == 6) = true ∧
    yields (.twinReady 2 true false 4) (let s := twin {} base; { s with ctl := { s.ctl with recoverStage := .handshake } }) (fun t =>
      t.twin.answer == some (true, false, 4)) = true := by decide +kernel
/-- R285, R289: a shipped record is written at its place of the shadow. -/
theorem test_twin_ship :
    yields (.twinShip 2 9 4 false [{ accept5 with pos := 66 }.bytes]) (keeper { shadowHeld := true, shadowPoint := 65, shadowAnchorTail := 3 }) (fun t =>
      t.twin.shadowTail == 4 && t.twin.shipTag == 9 && t.twin.shadowPoint == 65 &&
      (t.port 0).wr.queue.map (fun r => (r.owner, r.beats.map (·.first))) == [(.shadow 66, [0x200080])]) = true := by decide +kernel
theorem test_ship_to_stash :
    (let s := stashed (keeper { shadowHeld := true, shadowPoint := 65, shadowAnchorTail := 3 })
     s.stashTakes 0x200080 = some 0 ∧ yields (.twinShip 2 9 4 false [{ accept5 with pos := 66 }.bytes]) s (fun t => decide (t.ports = s.ports) &&
       (t.stashPort 0).tiles.length == 1) = true) := by decide +kernel

/-! ## The modes, reset, and the channel states -/

/-- CTL's queue holds one WRITE of n bytes by the byte port. -/
def wr (i sub n v : Nat) : Request := ⟨.bytePort, 2, 1, i, sub, 0, n, 0, leBytes n v⟩
def asked (r : Request) (s : State) : State := { s with ctl := { s.ctl with waiting := [r] } }
/-- Claims.writes as a test. -/
def writesB (s : State) (i sub v : Nat) : Bool :=
  !s.ctl.acted && s.ctl.waiting.head?.any fun r => decide (r.service = 2) && r.index == i && r.sub == sub && r.value == v && r.formRefuses.isNone &&
    (s.objectRefuses r).isNone
def inMode (m : Mode) (s : State) : State := { s with ctl := { s.ctl with mode := m } }
def modeAsk (v : Nat) (m : Mode) : State := asked (wr 0x2000 0 1 v) (inMode m base)
def enters (i : Instr) (v : Nat) (s : State) (m : Mode) : Bool := writesB s 0x2000 0 v && yields i s fun t => t.ctl.mode == m && t.ctl.waiting.isEmpty
/-- R56, R57: the entries of the table that wait for nothing. -/
theorem test_mode_entries :
    enters .modeWriteHalt 0 (modeAsk 0 .config) .halt = true ∧ enters .modeWriteHalt 0 (modeAsk 0 .survey) .halt = true ∧
    enters .modeWriteHalt 0 (modeAsk 0 .recover) .halt = true ∧ enters .modeWriteConfig 1 (modeAsk 1 .halt) .config = true ∧
    (modeAsk 2 .config).journalValid = false ∧ (modeAsk 2 .config).stagedAny = false ∧
    enters .modeWriteFlow 2 (modeAsk 2 .config) .flow = true ∧
    enters .modeWriteDrain 5 (modeAsk 5 .flow) .drain = true ∧
    (writesB (modeAsk 5 .twin) 0x2000 0 5 && yields .modeWriteDrain (modeAsk 5 .twin) fun t => t.ctl.mode == .drain && t.ctl.acted &&
      t.ctl.waiting.length == 1 && t.upkeepBusy) = true ∧
    enters .modeWriteSurvey 7 (modeAsk 7 .halt) .survey = true := by decide +kernel
/-- A live journal: the anchor, and an EPOCH OPEN record at its TAIL. -/
def openRec : Record := { kind := .epoch, event := 1, mode := 3, epoch := 1, node := 7, pos := 0 }
def live (s : State) : State :=
  let k : State := { s with dict := keepDict, jrn := { head := 1, epoch := 1, anchorState := 1, anchorMode := 3 } }
  (k.writeBytes (anchorAddr k) (anchorBytes k)).writeBytes 0x100000 openRec.bytes
/-- R57, R65: over a live journal RECOVER is entered, FLOW refused. -/
theorem test_mode_recover : (live (modeAsk 6 .halt)).journalValid = true ∧
    enters .modeWriteRecover 6 (live (modeAsk 6 .halt)) .recover = true ∧
    yields .modeWriteFlow (live (modeAsk 2 .config)) (fun t => t.ctl.mode == .config && t.ctl.lastAbort == 0x50000001) = true := by decide +kernel
/-- R57: what the table does not hold is refused. -/
def refuses (i : Instr) (v : Nat) (s : State) : Bool :=
  writesB s 0x2000 0 v && yields i s fun t => t.ctl.mode == s.ctl.mode && t.ctl.lastAbort == 0x50000001
theorem test_mode_refusals :
    refuses .modeWriteHalt 0 (modeAsk 0 .flow) = true ∧ refuses .modeWriteConfig 1 (modeAsk 1 .flow) = true ∧
    refuses .modeWriteDrain 5 (modeAsk 5 .config) = true ∧ refuses .modeWriteFlow 2 (modeAsk 2 .halt) = true ∧
    refuses .modeWriteKeep 3 (modeAsk 3 .drain) = true ∧ refuses .modeWriteTwin 4 (modeAsk 4 .recover) = true ∧
    refuses .modeWriteRecover 6 (modeAsk 6 .config) = true ∧ refuses .modeWriteSurvey 7 (modeAsk 7 .flow) = true := by decide +kernel
/-- 4 GiB at port 0 and a journal of 262,144 records. -/
def jAsk (v : Nat) (stage : RecoverStage) : State :=
  let s := modeAsk v .config
  { s with ctl := { s.ctl with recoverStage := stage }, straps := { s.straps with memSize := [4, 0, 0, 0, 0, 0, 0, 0] }
           dict := { values := [(objKey 0x9001 0, 0x100000), (objKey 0x9002 0, 262144)] } }
/-- R58, R281, R284: KEEP and TWIN wait for their record. -/
theorem test_journaled_entries :
    writesB (jAsk 3 .none) 0x2000 0 3 = true ∧ writesB (jAsk 4 .none) 0x2000 0 4 = true ∧
    (jAsk 3 .none).journalValid = false ∧ (jAsk 3 .none).entryRefusal = none ∧ admits (jAsk 3 .none) .epoch = true ∧
    yields .modeWriteKeep (jAsk 3 .none) (fun t => t.ctl.mode == .config && t.ctl.recoverStage == .opening &&
      t.ctl.waiting.length == 1 && t.jrn.epoch == 1) = true ∧
    yields .modeWriteTwin (jAsk 4 .none) (fun t => t.ctl.recoverStage == .handshake && t.ctl.waiting.length == 1) = true ∧
    yields .twinEntryLimit (jAsk 4 .handshake) (fun t => t.ctl.mode == .config && t.ctl.recoverStage == .none &&
      t.ctl.lastAbort == 0x50000001) = true := by decide +kernel
theorem test_keep_stands : (jAsk 3 .opening).openStands .keep = true ∧
    writesB (jAsk 3 .opening) 0x2000 0 3 = true ∧
    (jAsk 3 .anchoring).upkeepBusy = false ∧
    yields .modeWriteKeep (jAsk 3 .anchoring) (fun t => t.ctl.mode == .keep && t.ctl.recoverStage == .none) = true := by decide +kernel
/-- The beat of an upkeep write, at its port. -/
def upkeeping (s : State) : State := s.setPort 0 { wr := { out := [acc0 .upkeep] } }
/-- R270, R273, R279: what needs JRN's write waits for its answer. -/
theorem test_upkeep :
    (upkeeping (jAsk 3 .anchoring)).upkeepBusy = true ∧
    answersWith .modeWriteKeep (upkeeping (jAsk 3 .anchoring)) (upkeeping (jAsk 3 .anchoring)) = true ∧
    answersWith .modeWriteTwin (upkeeping (jAsk 4 .anchoring)) (upkeeping (jAsk 4 .anchoring)) = true ∧
    answersWith .recover (upkeeping (inMode .recover (jAsk 3 .restoring))) (upkeeping (inMode .recover (jAsk 3 .restoring))) = true ∧
    yields (.writeResponse 0 5 false true) (upkeeping { base with jrn := { tail := 7 } }) (fun t => t.jrn.tailWritten == 7 &&
      t.byteAt 0x9000 == 5 && !t.upkeepBusy) = true := by decide +kernel
def twinStands : State := { jAsk 4 .opening with twin := { held := true, point := 4 }, jrn := { head := 5, epoch := 1 } }
theorem test_twin_stands : twinStands.openStands .twin = true ∧
    writesB twinStands 0x2000 0 4 = true ∧
    yields .modeWriteTwin (jAsk 4 .anchoring) (fun t => t.ctl.mode == .twin && t.ctl.recoverStage == .none) = true := by decide +kernel
/-- R55, R61, R62: DRAIN. -/
theorem test_drain :
    writesB (asked (wr 0x2001 0 1 2) base) 0x2001 0 2 = true ∧
    yields .drainTargetWrite (asked (wr 0x2001 0 1 2) base) (fun t => t.ctl.drainTarget == 2 && t.ctl.mode == .flow) = true ∧
    yields .drainEnd (inMode .drain (withCtx { ctx3 with state := .idle })) (fun t => t.ctl.mode == .config) = true ∧
    yields .drainEnd (inMode .drain (withCtx { running item0 with state := .paused })) (fun t => t.ctl.mode == .drain && t.ctl.drainHeld == 3) = true ∧
    (inMode .drain (withCtx (running item0))).drainBusy = true ∧
    yields .drainEnd (inMode .drain (withCtx (running item0))) (fun t => t.ctl.mode == .drain && t.ctl.drainHeld == 0) = true := by decide +kernel
/-- R283, R381: a held target is in force with its response; R57: HALT is refused from HALT and DRAIN. -/
theorem test_drain_target_returns :
    (let s := asked (wr 0x2001 0 1 2) (keep base)
     let t : State := { s with ctl := { s.ctl with acted := true, due := some (0x2001, 0, 2) } }
     t.upkeepBusy = false ∧ yields .drainTargetWrite t (fun u => u.ctl.drainTarget == 2 && !u.ctl.acted && u.ctl.due.isNone &&
       u.ctl.waiting.isEmpty) = true) ∧
    refuses .modeWriteHalt 0 (modeAsk 0 .halt) = true ∧ refuses .modeWriteHalt 0 (modeAsk 0 .drain) = true := by decide +kernel
/-- R461, R462: SURVEY ends in CONFIG, with the islands that failed. -/
theorem test_survey_end :
    yields (.surveyEnd 4) (inMode .survey base) (fun t => t.ctl.mode == .config && t.ctl.surveyResult == 3 && bitOf t.ctl.surveyFailed 2 &&
      (t.island 2).testStatus == 3 && (t.island 3).testStatus == 2) = true ∧
    yields (.surveyEnd 0) (inMode .survey base) (fun t => t.ctl.surveyResult == 2) = true := by decide +kernel
/-- R26, R69, R432: the reset keeps memory, the keys and the queue, and wakes by the anchor. -/
theorem test_device_reset :
    yields (.deviceReset base.straps) { (withCtx ctx3) with pending := [.recover], mem := [(5, 1)], prot := { openWindow with keyA := some [1] } } (fun t =>
      t.mem == [(5, 1)] && t.ctxs.isEmpty && t.ctl.mode == .halt && t.prot == { keyA := some [1] } && t.pending == [.recover]) = true ∧
    yields (.deviceReset base.straps) (live base) (fun t => t.ctl.mode == .recover) = true := by decide +kernel
/-- R191, R281, R292, R294: RECOVER repeats its handshake, has POOL rebuild, waits for it, and ends in the anchor's mode. -/
def recovering (stage : RecoverStage) (anchor : Nat) (gs : Tab Galley) : State :=
  let s := inMode .recover (jAsk 3 stage)
  { s with jrn := { head := 5, epoch := 1, anchorState := anchor, anchorMode := 3 }, pool := { s.pool with galleys := gs } }
theorem test_recover_handshake :
    answersWith .recover (inMode .recover (jAsk 4 .handshake)) (inMode .recover (jAsk 4 .handshake)).sendHello = true := by decide +kernel
theorem test_recover :
    (recovering .opening 1 []).jrn.inFlight = [] ∧ (recovering .opening 1 []).jrn.anchorMode ≠ 4 ∧
    yields .recover (recovering .restoring 1 []) (fun t => t.ctl.mode == .recover && t.ctl.recoverStage == .rebuilding) = true ∧
    answersWith .recover (recovering .rebuilding 1 [(5, { g8 with state := .rebuilding })]) (recovering .rebuilding 1 [(5, { g8 with state := .rebuilding })]) = true ∧
    yields .recover (recovering .rebuilding 1 []) (fun t => t.ctl.mode == .keep && t.ctl.recoverStage == .none) = true ∧
    yields .recover (recovering .rebuilding 2 []) (fun t => t.ctl.mode == .drain) = true := by decide +kernel
/-- R264, R270: RECOVER waits while the port of the slots it reads takes no access. -/
theorem test_recover_waits :
    (let r := recovering .rebuilding 1 []
     let s := ({ r with jrn := { r.jrn with log := [{ kind := .accept, ctx := 3, slotAddr := 0x10000 }] } } : State).setPort 0 { qreq := true, qack := true }
     s.readsWait s.slotReads = true ∧ answersWith .recover s s = true) := by decide +kernel
/-- R249, R251, R253, R267: halts, pauses and aborts end once the channel is drained. -/
theorem test_stops_end :
    yields (.haltComplete 3) (withCtx { running item0 with halting := true, faults := [{ status := .badOp, address := 0x40 }] }) (fun t =>
      (t.ctx 3).state == .halted && !(t.ctx 3).halting && (t.ctx 3).record.status == Status.badOp.code && (t.ctx 3).record.address == 0x40 &&
      Tab.get zeroTab t.ctl.eventCount 1 == 1) = true ∧
    yields (.pauseComplete 3) (withCtx { running item0 with state := .pausing, pauseBit := true }) (fun t =>
      (t.ctx 3).state == .paused && (t.ctx 3).record.status == 2 && (t.ctx 3).record.seq == 1) = true ∧
    yields (.abortComplete 3) (withCtx { running item0 with state := .aborting }) (fun t =>
      item1 t fun x => x.endStatus == 0x1A && x.ending == some .words) = true ∧
    (withCtx (running item0)).chanAccess 3 = false ∧ (withCtx (running item0)).poolBusy 3 = false := by decide +kernel

/-! ## Maltur and the dictionary -/

def resp1 : Response := ⟨0x81, 5, 0x2000, 0, 0, 0, [2]⟩
/-- R371: the flag and the escape are stuffed. -/
theorem test_stuffing : stuff [0x7E, 0x7D, 1] = [0x7D, 0x5E, 0x7D, 0x5D, 1] ∧ unstuff [0x7D, 0x5E, 0x7D, 0x5D, 1] = some ([0x7E, 0x7D, 1], false) := by
  decide +kernel
/-- R370, R372: a body's bytes and its reading. -/
theorem test_maltur_body : resp1.bytes.take 8 = [0x81, 5, 0x00, 0x20, 0, 0, 1, 0] ∧
    requestOf .bytePort resp1.bytes = some ⟨.bytePort, 0x81, 5, 0x2000, 0, 0, 1, 0, [2]⟩ := by decide +kernel
/-- R274, R275: an EPOCH record and a COMPLETE record read back. -/
theorem test_records_read_back :
    recordOf openRec.bytes = some openRec ∧ openRec.bytes.length = 64 ∧ openRec.bytes.take 8 = [5, 0, 7, 0, 1, 0, 0, 0] ∧
    recordOf ({ kind := .complete, ctx := 3, seq := 5, slotIndex := 1, statusArea := leBytes 16 7 } : Record).bytes =
      some { kind := .complete, ctx := 3, seq := 5, slotIndex := 1, statusArea := leBytes 16 7 } := by decide +kernel

/-- A READ body of MODE from node 4. -/
def readMode : Response := ⟨1, 9, 0x2000, 0, 0, 0, []⟩
def rd (service i sub flags n off : Nat) (data : List Byte) : Request := ⟨.node 4, service, 9, i, sub, flags, n, off, data⟩
/-- R369, R371, R373: a request waits; what is none is counted. -/
theorem test_maltur_frames :
    yields (.malturFrame (.node 4) readMode.bytes) base (fun t => t.ctl.waiting == [rd 1 0x2000 0 0 0 0 []]) = true ∧
    yields (.malturFrame (.node 4) readMode.bytes) (asked (wr 0x2000 0 1 5) base) (fun t => t.ctl.waiting.length == 2) = true ∧
    yields (.malturFrame (.node 4) [1, 2, 3]) base (fun t => t.ctl.discards == 1 && t.ctl.waiting.isEmpty) = true := by decide +kernel
def answered (i : Instr) (r : Request) (s : State) (data : List Byte) (f : State → Bool) : Bool :=
  r.formRefuses.isNone && ((asked r s).objectRefuses r).isNone &&
    yields i (asked r s) fun t => f t && t.ctl.waiting.isEmpty && t.ctl.lastAnswered.any fun x => x.1 == r && x.2.data == data
/-- R337, R376: READ of MODE answers 2, a read of ISLAND_STATE clears FAULT. -/
theorem test_reads :
    answered .read (rd 1 0x2000 0 0 0 0 []) base [2] (fun _ => true) = true ∧
    answered .islandStateRead (rd 1 0x3000 4 0 0 0 []) (base.setIsland 3 { base.island 3 with fault := true }) [0x11] (fun t => !(t.island 3).fault) = true := by
  decide +kernel
/-- R376, R382, R405, R437: a staged value with its flag, a string, and the registers of a slot by their owner. -/
theorem test_other_reads :
    answered .read (rd 1 0x9002 0 0 0 0 []) { base with dict := { staged := [(objKey 0x9002 0, 131072)] } } (leBytes 4 131072)
      (fun t => t.ctl.lastAnswered.any fun x => x.2.flags == 8) = true ∧
    answered .read (rd 1 0x1000 0 0 0 0 []) base (strBytes 0x1000) (fun _ => true) = true ∧
    isSlotReg 0x8005 2 = true ∧ (objRow 0x8005 2).isSome = true ∧ base.slotOwner 5 ≠ 1 ∧
    (base.objectRefuses (rd 1 0x8005 2 0 0 0 [])).isNone = true ∧
    yields .read (asked (rd 1 0x8005 2 0 0 0 []) base) (fun t => t.ctl.lastAbort == 0x50000001 && t.ctl.waiting.isEmpty) = true ∧
    answered .read (rd 1 0x8005 2 0 0 0 []) (({ base with dict := { values := [(objKey 0x8005 1, 1)] } } : State).setSlot 5 { src := 9 }) (leBytes 8 9)
      (fun _ => true) = true := by decide +kernel
/-- R283: a write of an RW object in KEEP; R369, R371, R373: what the byte port gives, a repeat, and the 18th request. -/
theorem test_other_frames :
    writesB (asked (wr 0x3100 0 4 9) (keep base)) 0x3100 0 9 = true ∧ (keep base).journaled = true ∧
    yields (.malturFrame .bytePort (0x7E :: stuff readMode.bytes)) base (fun t => t.ctl.waiting.map (·.index) == [0x2000] && t.ctl.rx.isNone) = true ∧
    answersWith (.malturFrame (.node 4) readMode.bytes) (asked (rd 1 0x2000 0 0 0 0 []) base) (asked (rd 1 0x2000 0 0 0 0 []) base) = true ∧
    answersWith (.malturFrame (.node 4) readMode.bytes) { base with ctl := {} } { base with ctl := {} } = true ∧
    yields (.malturFrame (.node 4) readMode.bytes) { base with ctl := { base.ctl with waiting := List.replicate 17 (wr 0x2000 0 1 5) } } (fun t =>
      t.ctl.waiting.length == 17 && t.ctl.discards == 1) = true := by decide +kernel
/-- R381, R382: in CONFIG an RWS value is staged, an RW value in force. -/
theorem test_writes :
    (objRow 0x9002 0).any (fun o => o.cls == .rws) = true ∧
    answered .objectWrite (wr 0x9002 0 4 131072) (inMode .config base) [] (fun t => t.dict.staged == [(objKey 0x9002 0, 131072)] && t.obj 0x9002 0 == 0) = true ∧
    answered .write (wr 0x9002 0 4 131072) (inMode .config base) [] (fun t => t.dict.staged == [(objKey 0x9002 0, 131072)]) = true ∧
    answered .objectWrite (wr 0x3100 0 4 9) (inMode .config base) [] (fun t => t.obj 0x3100 0 == 9) = true ∧
    answered .write (wr 0x3100 0 4 9) (inMode .config base) [] (fun t => t.obj 0x3100 0 == 9) = true := by decide +kernel
/-- R383, R385, R419: COMMIT applies the staged values, DISCARD drops them. -/
def stagedOne : State :=
  let s := inMode .config base
  { s with dict := { staged := [(objKey 0x4011 0, 7)] }, straps := { s.straps with memSize := [4, 0, 0, 0, 0, 0, 0, 0] } }
theorem test_commit :
    stagedOne.regionsOk = true ∧ (asked (wr 0x2F00 0 1 1) stagedOne).pointReached = true ∧
    answered .commit (wr 0x2F00 0 1 1) stagedOne [] (fun t => t.dict.staged.isEmpty && t.obj 0x4011 0 == 7 && t.dict.commits == 1) = true ∧
    answered .discard (wr 0x2F01 0 1 1) stagedOne [] (fun t => t.dict.staged.isEmpty && t.obj 0x4011 0 == stagedOne.obj 0x4011 0) = true := by decide +kernel
/-- R225, R377, R396: segments of a type case, and of the wait snapshot. -/
theorem test_segments :
    answered .segRead (rd 3 0x4040 2 0 4 510 []) base [0x80, 0x80] (fun t => t.ctl.lastAnswered.any fun x => x.2.flags == 2) = true ∧
    answered .segWrite (rd 4 0x4040 2 0 2 510 [3, 4]) base [] (fun t => (t.port 1).caseEdit == [(510, 3), (511, 4)]) = true ∧
    yields .waitSnapshotRead (asked (rd 3 0xA800 0 1 64 0 []) base) (fun t => t.ctl.waitSnapshot == base.takeSnapshot.ctl.waitSnapshot) = true ∧
    (base.objectRefuses (rd 3 0xA800 0 1 64 0 [])) = none := by decide +kernel
/-- R372, R389: a value outside its range is refused with an ABORT. -/
theorem test_refusal :
    yields .write (asked (wr 0x2001 0 1 9) base) (fun t => t.ctl.lastAbort == 0x40000002 && t.ctl.waiting.isEmpty &&
      t.ctl.lastAnswered.any fun x => x.2.flags == 4 && x.2.data == leBytes 4 0x40000002) = true := by decide +kernel
/-- R283, R381: a value is in force with its response. R320: in NODE_SPACE_FULL no request by a link is served. R379: no NOTIFY is due. -/
theorem test_held_values :
    (let s := asked (wr 0x3100 0 4 9) (keep base)
     let t : State := { s with ctl := { s.ctl with acted := true, due := some (0x3100, 0, 9) } }
     yields .objectWrite t (fun u => u.obj 0x3100 0 == 9 && !u.ctl.acted && u.ctl.waiting.isEmpty) = true) ∧
    (let s : State := { base with fab := { base.fab with nodeState := 2 } }
     answersWith (.malturFrame (.node 4) readMode.bytes) s s = true) ∧
    (let s : State := { base with dict := { values := [(objKey 0x1020 0, 0x8000)] } }
     answersWith (.notify 3) s s = true) := by decide +kernel
/-- R379: NOTIFY by the byte port. -/
theorem test_notify :
    { base with dict := { values := [(objKey 0x1020 0, 0x8000)] } }.notifyRoute = some .bytePort ∧
    yields (.notify 3) { base with dict := { values := [(objKey 0x1020 0, 0x8000)] }, ctl := { base.ctl with notifyPending := [(3, 2)], notifyDue := [(3, 1)] } } (fun t =>
      t.ctl.notifyCount == 1 && t.ctl.output.length == 1 && Tab.get zeroTab t.ctl.notifyPending 3 == 0) = true := by decide +kernel

/-! ## The objects that act -/

def asksW (i : Instr) (r : Request) (s : State) (f : State → Bool) : Bool :=
  writesB (asked r s) r.index r.sub r.value && yields i (asked r s) f
/-- Galley 5 is selected, its CREATE an item galley of 8 bytes. -/
def galleyAt (width : Nat) (y : Galley) : State :=
  let s := pooled y base
  { s with dict := { values := [(objKey 0x7001 0, 64), (objKey 0x7010 0, 5), (objKey 0x7011 2, width), (objKey 0x9001 0, 0x100000), (objKey 0x9002 0, 131072)] } }
def galleyI (v : Nat) : Instr := match v with | 1 => .galleyCreate | 2 => .galleyFlush | _ => .galleyDelete
def galleyCmd (y : Galley) (v : Nat) (f : State → Bool) : Bool := asksW (galleyI v) (wr 0x7012 0 1 v) (galleyAt 8 y) f
def galleyRefused (y : Galley) (width v code : Nat) : Bool :=
  asksW (galleyI v) (wr 0x7012 0 1 v) (galleyAt width y) fun t => t.ctl.lastAbort == code && t.pool == (galleyAt width y).pool
/-- R164 to R166, R389: the value before the state; and what is refused at an absent or a rebuilding galley. -/
theorem test_galley_refusals :
    galleyRefused g8 7 1 0x40000002 = true ∧ galleyRefused g8 8 1 0x50000001 = true ∧ galleyRefused {} 8 2 0x50000001 = true ∧
    galleyRefused { g8 with state := .rebuilding } 8 2 0x50000001 = true ∧ galleyRefused {} 8 3 0x50000001 = true := by decide +kernel
/-- R189: with a journal the FLUSH record is issued and the answer waits; a seal under way comes first. -/
theorem test_flush_waits :
    admits (inMode .keep (galleyAt 8 { g8 with entries := [e2] })) .flush = true ∧
    asksW .galleyFlush (wr 0x7012 0 1 2) (inMode .keep (galleyAt 8 { g8 with entries := [e2] })) (fun t => (t.galley 5).entries.isEmpty &&
      t.ctl.waiting.length == 1 && t.ctl.holdPos == some 0 && t.jrn.head == 1) = true ∧
    asksW .galleyFlush (wr 0x7012 0 1 2) (galleyAt 8 { g8 with entries := [e2], sealing := some ⟨seal1, unit1, [], [], [], none⟩ }) (fun t =>
      (t.galley 5).entries == [e2] && t.ctl.waiting.length == 1) = true := by decide +kernel
/-- R164 to R166, R187. -/
theorem test_galley_commands :
    galleyCmd {} 1 (fun t => (t.galley 5).state == .active && (t.galley 5).width == 8) = true ∧
    galleyCmd { g8 with entries := [{ e1 with heldBy := some (3, 1, 0) }, e2] } 2 (fun t => (t.galley 5).entries == [{ e1 with heldBy := some (3, 1, 0) }] &&
      (t.galley 5).flushes == 1) = true ∧
    galleyCmd { g8 with entries := [{ e1 with heldBy := some (3, 1, 0) }] } 3 (fun t => (t.galley 5).state == .deleting) = true ∧
    galleyCmd { g8 with entries := [e2] } 3 (fun t => (t.galley 5).state == .absent) = true := by decide +kernel
def chanCmd (i : Instr) (v : Nat) (x : Ctx) (f : State → Bool) : Bool :=
  asksW i (wr 0xC001 0 1 v) { withCtx x with dict := { values := [(objKey 0xC0FF 0, 3)] } } f
/-- R248, R250, R252, R253: the channel commands. -/
theorem test_channel_commands :
    chanCmd .channelPause 1 ctx3 (fun t => (t.ctx 3).state == .paused && (t.ctx 3).pauseBit) = true ∧
    chanCmd .channelPause 1 (running item0) (fun t => (t.ctx 3).state == .pausing) = true ∧
    chanCmd .channelResume 2 { ctx3 with state := .paused, pauseBit := true } (fun t => (t.ctx 3).state == .idle && !(t.ctx 3).pauseBit) = true ∧
    chanCmd .channelAbort 3 { running item0 with state := .halted, record := { status := 0x10 } } (fun t =>
      (t.ctx 3).state == .aborting && (t.ctx 3).abortStatus == 0x10) = true := by decide +kernel
def ctxCmd (i : Instr) (r : Request) (x : Ctx) (f : State → Bool) : Bool :=
  asksW i r (inMode .config { withCtx x with dict := { values := [(objKey 0xC0FF 0, 3)] } }) f
/-- R392, R393: OPEN, CLOSE, a field of a closed context. -/
theorem test_context_commands :
    ctxCmd .contextOpen (wr 0xC003 0 1 1) { ctx3 with state := .closed, accepted := 9 } (fun t => (t.ctx 3).state == .idle && (t.ctx 3).accepted == 0) = true ∧
    ctxCmd .contextClose (wr 0xC003 0 1 2) ctx3 (fun t => (t.ctx 3).state == .closed) = true ∧
    ctxCmd .contextFieldWrite (wr 0xC000 5 2 9) { ctx3 with state := .closed } (fun t => (t.ctx 3).f == ctx3.f.write 5 9) = true ∧
    ctxCmd .contextFieldWrite (wr 0xC000 8 1 32) ctx3 (fun t => (t.ctx 3).f.share == 32) = true ∧
    ctxCmd .contextFieldWrite (wr 0xC000 5 2 9) ctx3 (fun t => (t.ctx 3).f == ctx3.f && t.ctl.lastAbort == 0x50000001) = true := by decide +kernel
/-- R65, R295, R298: FORMAT, DISCARD and the takeover. -/
theorem test_format_and_takeover :
    base.regionOk (anchorAddr base) 64 = true ∧
    asksW .format (wr 0x9006 0 1 1) (inMode .config { base with jrn := { head := 9, epoch := 3 } }) (fun t => t.jrn.head == 0 && t.jrn.epoch == 0) = true ∧
    asksW .formatDiscard (wr 0x9006 0 1 2) (inMode .config (live base)) (fun t => t.jrn.head == 0 && t.jrn.epoch == 0) = true ∧
    asksW .takeoverFreeze (wr 0x9040 0 1 1) (keeper {}) (fun t => t.twin.takeover == 2) = true ∧
    asksW .takeoverEnd (wr 0x9040 0 1 2) (keeper { takeover := 2, shadowHeld := true }) (fun t => t.twin.takeover == 0 && !t.twin.shadowHeld) = true := by
  decide +kernel
/-- R65, R295, R298: what is refused, and what changes nothing. -/
def refusedW (code : Nat) (t : State) : Bool := t.ctl.lastAbort == code && t.ctl.waiting.isEmpty
theorem test_format_refusals :
    asksW .format (wr 0x9006 0 1 1) { inMode .config base with straps := Straps.reset } (refusedW 0x40000002) = true ∧
    asksW .formatDiscard (wr 0x9006 0 1 2) base (refusedW 0x50000001) = true ∧
    asksW .format (wr 0x9006 0 1 1) (inMode .config (live base)) (refusedW 0x50000001) = true ∧
    (wr 0x9040 0 1 1).formRefuses = none ∧
    yields .takeoverFreeze (asked (wr 0x9040 0 1 1) (inMode .halt (keeper {}))) (refusedW 0x50000001) = true ∧
    asksW .takeoverFreeze (wr 0x9040 0 1 1) (keeper { takeover := 2 }) (fun t => t.twin == { takeover := 2 } && t.ctl.waiting.isEmpty) = true ∧
    asksW .takeoverEnd (wr 0x9040 0 1 2) (keeper {}) (fun t => t.twin == {} && t.ctl.waiting.isEmpty) = true := by decide +kernel
/-- R225, R226, R314, R319: refusals, a link that may train again, the assigner's own new identifier. -/
def conflict (serial : Nat) : State := { base with straps := { base.straps with nodeSerial := serial }, fab := { base.fab with nodeState := 3, nodeId := some 9 } }
theorem test_port_and_link_refusals :
    (portCase [(3, 0x23)]).all caseByteOk = false ∧
    asksW .typeCaseCommit (wr 0x4041 0 1 2) (base.setPort 1 { caseEdit := [(3, 0x23)] }) (refusedW 0x40000002) = true ∧
    asksW .typeCaseCommit (wr 0x4041 0 1 2) (base.setPort 1 { rd := { swapPending := true } }) (refusedW 0x50000001) = true ∧
    (base.setObj 0x6051 2 0).canTrain 1 = true ∧
    asksW .linkCtrlWrite (wr 0x6051 2 1 0) (base.setLink 1 { state := 4 }) (fun t => (t.link 1).state == 1) = true ∧
    asksW .renumber (wr 0x6002 0 1 1) base (refusedW 0x50000001) = true ∧
    (conflict 7).isRoot = true ∧
    asksW .renumber (wr 0x6002 0 1 1) (conflict 7) (fun t => t.fab.nodeState == 1 && t.fab.nodeId.isSome) = true := by decide +kernel
/-- R226, R236, R314, R319. -/
theorem test_port_and_link_objects :
    asksW .typeCaseCommit (wr 0x4041 0 1 2) base (fun t => (t.port 1).rd.swapPending && !(t.port 0).rd.swapPending) = true ∧
    (portCase (base.port 1).caseEdit).all caseByteOk = true ∧
    asksW .counterClear (wr 0xA22F 0 1 1) (port0 { grants := [(3, 9)] }) (fun t => (t.port 0).grants.isEmpty) = true ∧
    asksW .linkCtrlWrite (wr 0x6051 2 1 1) (base.setLink 1 { state := 1 }) (fun t => (t.link 1).state != 1) = true ∧
    asksW .renumber (wr 0x6002 0 1 1) { base with fab := { base.fab with nodeState := 3, nodeId := some 9 } } (fun t => t.fab.nodeState != 3) = true := by
  decide +kernel
/-- R283, R381: a field and a link's control are in force with the response. -/
def returning (i : Instr) (r : Request) (s : State) (f : State → Bool) : Bool :=
  let a := asked r s
  yields i { a with ctl := { a.ctl with acted := true, due := some (r.index, r.sub, r.value) } } fun t => f t && !t.ctl.acted && t.ctl.waiting.isEmpty
theorem test_fields_return :
    returning .contextFieldWrite (wr 0xC000 8 1 32) { withCtx ctx3 with dict := { values := [(objKey 0xC0FF 0, 3)] } } (fun t => (t.ctx 3).f.share == 32) = true ∧
    returning .linkCtrlWrite (wr 0x6051 2 1 1) (base.setLink 1 { state := 1 }) (fun t => t.obj 0x6051 2 == 1 && (t.link 1).state == 4) = true ∧
    returning .linkCtrlWrite (wr 0x6051 2 1 0) (base.setLink 1 { state := 4 }) (fun t => (t.link 1).state == 1) = true ∧
    writesB (asked (wr 0x6051 2 1 1) (keep base)) 0x6051 2 1 = true := by decide +kernel
def out (i : Nat) (s : State) : State := s.setIsland i { s.island i with heldOut := true, inReset := true }
/-- R352, R452, R456, R458: the service commands of islands. -/
theorem test_island_service :
    isCentral 15 = true ∧
    asksW .islandReset (wr 0x3001 16 1 1) (inMode .config base) (fun t => (t.island 15).inReset) = true ∧
    asksW .islandReset (wr 0x3001 16 1 1) base (fun t => !(t.island 15).inReset && t.ctl.lastAbort == 0x50000001) = true ∧
    asksW .retire (wr 0x3400 27 1 1) base (fun t => (t.island 26).heldOut && (t.island 26).inReset) = true ∧
    asksW .test (wr 0x3400 27 1 2) (out 26 base) (fun t => (t.island 26).testStatus == 1) = true ∧
    yields (.testEnd 26 true) ((out 26 base).setIsland 26 { (out 26 base).island 26 with testStatus := 1 }) (fun t => (t.island 26).testStatus == 2) = true ∧
    asksW .returnIsland (wr 0x3400 47 1 3) (out 46 base) (fun t => !(t.island 46).heldOut && !(t.island 46).inReset) = true := by decide +kernel
def hadEffect : State :=
  let s := asked (wr 0x1020 0 2 7) base
  { s with ctl := { s.ctl with acted := true } }
/-- R270, R283: a write that has had its effect is answered once JRN's writes are done. -/
theorem test_acted : (wr 0x1020 0 2 7).plainWrite = true ∧ hadEffect.upkeepBusy = false ∧ (upkeeping hadEffect).upkeepBusy = true ∧
    answersWith .objectWrite (upkeeping hadEffect) (upkeeping hadEffect) = true ∧
    yields .objectWrite hadEffect (fun t => t.ctl.waiting.isEmpty && !t.ctl.acted && t.obj 0x1020 0 == base.obj 0x1020 0) = true := by decide +kernel
def seg (i : Nat) (data : List Byte) : Request := rd 4 i 0 3 data.length 0 data
def asksB (s : State) : Bool := !s.ctl.acted && s.ctl.waiting.head?.any fun r => r.formRefuses.isNone && (s.objectRefuses r).isNone
def protAsk (i : Instr) (r : Request) (p : Protect) (m : Mode) (f : State → Bool) : Bool :=
  let s := asked r (inMode m { base with prot := p })
  asksB s && yields i s f
/-- R399, R400: key, PROPOSED, NONCE and tag. -/
theorem test_protection_objects :
    protAsk .keyWrite (seg 0x5010 (List.replicate 32 5)) {} .config (fun t => t.prot.keyA == some (List.replicate 32 5)) = true ∧
    protAsk .proposedWrite { seg 0x5100 [1, 0] with flags := 1 } { nonce := some 4, tagA := some [1] } .flow (fun t => t.prot.nonce.isNone && t.prot.tagA.isNone &&
      t.prot.proposedByte 0 == 1) = true ∧
    protAsk .nonceRead (rd 1 0x5101 0 0 0 0 []) { tagA := some [1] } .flow (fun t => t.prot.nonce.isSome && t.prot.tagA.isNone && t.free == 1) = true ∧
    protAsk .tagWrite (seg 0x5102 (List.replicate 16 9)) {} .flow (fun t => t.prot.tagA.isNone && t.ctl.lastAbort == 0x60000003) = true ∧
    protAsk .tagWrite (seg 0x5102 (List.replicate 16 9)) { nonce := some 4 } .flow (fun t => t.prot.tagA == some (List.replicate 16 9)) = true ∧
    protAsk .tagWrite (seg 0x5103 (List.replicate 16 9)) { nonce := some 4 } .flow (fun t => t.prot.tagB == some (List.replicate 16 9)) = true ∧
    protAsk .keyWrite (seg 0x5011 (List.replicate 32 5)) {} .config (fun t => t.prot.keyB == some (List.replicate 32 5)) = true ∧
    protAsk .keyWrite { seg 0x5010 (List.replicate 16 5) with flags := 1 } {} .config (fun t => t.prot.keyA.isNone && t.prot.keyB.isNone) = true := by
  decide +kernel
/-- R402: PROTECT_COMMIT without the keys is refused. -/
theorem test_protect_commit_refused :
    asksW .protectCommit (wr 0x5104 0 1 1) base (fun t => t.ctl.lastAbort == 0x60000004 && t.prot.active == base.prot.active) = true := by decide +kernel
/-- In CONFIG, with both keys, a nonce and the tags the device computes. -/
def committing (ta tb : Option (List Byte)) : State :=
  asked (wr 0x5104 0 1 1) (inMode .config { base with prot :=
    { keyA := some (List.replicate 32 1), keyB := some (List.replicate 32 2), proposed := [(0, 1)], nonce := some 5, tagA := ta, tagB := tb } })
def tagged : State :=
  let img := proposedBytes (committing none none)
  committing (some (tagOf 0x41 (List.replicate 32 1) (leBytes 8 5) img)) (some (tagOf 0x42 (List.replicate 32 2) (leBytes 8 5) img))
theorem test_protect_image : imageValid (committing none none).prot.proposedByte = true := by decide +kernel
/-- The hypotheses of the applied PROTECT_COMMIT (R402) are met. -/
theorem test_protect_commit_applies : writesB (committing none none) 0x5104 0 1 = true ∧ tagged.protectRefusal = none := by
  refine ⟨by decide +kernel, ?_⟩
  have hv : imageValid tagged.prot.proposedByte = true := test_protect_image
  have ht : tagged.tagsOk = true := by
    have hi : proposedBytes tagged = proposedBytes (committing none none) := rfl
    unfold State.tagsOk
    rw [hi]
    simp [tagged, committing, asked, inMode]
  simp only [State.protectRefusal, hv, ht]
  rfl

/-! ## The legacy slots -/

/-- Slot 6 with a run from 8000h to 9000h of 64 bytes prepared. -/
def slot6 : Slot := { src := 0x8000, dst := 0x9000, count := 64 }
def legacy (x : Slot) : State := base.setSlot 6 x
def dictOwns (x : Slot) : State := { legacy x with dict := { values := [(objKey 0x8006 1, 1)] } }
/-- R436 to R444: the window's writes of a slot. -/
theorem test_legacy_window :
    base.portTakes 9 = true ∧ (legacy slot6).slotOwner 6 = 0 ∧ (dictOwns slot6).slotOwner 6 = 1 ∧
    yields (.legacyShadowWrite (.window 9) 6 8 0xABCD) (legacy slot6) (fun t => (t.slot 6).dst == 0xABCD && (t.slot 6).src == 0x8000 &&
      t.sched.dbOut == [⟨9, none, 0, false⟩]) = true ∧
    yields (.legacyStart (.window 9) 6 1) (legacy slot6) (fun t => (t.slot 6).state == 1 && (t.slot 6).workCount == 64 &&
      (t.slot 6).run.any fun r => r.total == 64) = true ∧
    yields (.legacyStart (.window 9) 6 1) (legacy { slot6 with state := 1 }) (fun t => (t.slot 6).startIgnored) = true ∧
    yields (.legacyAbort (.window 9) 6 2) (legacy { slot6 with state := 1 }) (fun t => (t.slot 6).state == 3) = true ∧
    yields (.legacyAbort (.window 9) 6 2) (legacy slot6) (fun t => (t.slot 6).state == 0) = true ∧
    yields (.legacyStart (.window 9) 6 1) (dictOwns slot6) (fun t => (t.slot 6).state == 0 && t.sched.dbOut == [⟨9, none, 0, true⟩]) = true := by
  decide +kernel
/-- R437, R441, R443: the dictionary's writes of its slot. -/
theorem test_legacy_dictionary :
    asksW (.legacyShadowWrite .dictionary 6 8 0x77) (wr 0x8006 3 8 0x77) (dictOwns slot6) (fun t => (t.slot 6).dst == 0x77) = true ∧
    asksW (.legacyStart .dictionary 6 1) (wr 0x8006 5 8 1) (dictOwns slot6) (fun t => (t.slot 6).state == 1) = true ∧
    asksW (.legacyStart .dictionary 6 1) (wr 0x8006 5 8 1) (dictOwns { slot6 with state := 1 }) (fun t => !(t.slot 6).startIgnored &&
      t.ctl.lastAbort == 0x50000001) = true ∧
    asksW (.legacyAbort .dictionary 6 2) (wr 0x8006 5 8 2) (dictOwns { slot6 with state := 1 }) (fun t => (t.slot 6).state == 3) = true := by
  decide +kernel
/-- In KEEP, with the journal's layout and slot 6 the dictionary's. -/
def keptSlot (x : Slot) : State := let s := dictOwns x; { keep s with dict := { values := [(objKey 0x8006 1, 1)] ++ keepDict.values } }
/-- A value of slot 6 whose write has had its effect, with nothing of JRN left to write. -/
def dueSlot (x : Slot) (sub data : Nat) : State :=
  let s := asked (wr 0x8006 sub 8 data) (dictOwns x)
  { s with ctl := { s.ctl with acted := true, due := some (0x8006, sub, data) } }
/-- R283, R381: a write in KEEP passes its checks; the value comes with the response, once JRN has written the image. -/
theorem test_legacy_response :
    (keptSlot slot6).journaled = true ∧ (keptSlot slot6).slotOwner 6 = 1 ∧
    (keptSlot slot6).objectRefuses (wr 0x8006 3 8 0x77) = none ∧ (wr 0x8006 3 8 0x77).formRefuses = none ∧
    yields (.legacyShadowWrite .dictionary 6 8 0x77) (dueSlot slot6 3 0x77) (fun t => (t.slot 6).dst == 0x77 && !t.ctl.acted) = true ∧
    yields (.legacyStart .dictionary 6 1) (dueSlot slot6 5 1) (fun t => (t.slot 6).state == 1) = true ∧
    yields (.legacyAbort .dictionary 6 2) (dueSlot { slot6 with state := 1 } 5 2) (fun t => (t.slot 6).state == 3) = true := by decide +kernel
/-- R445 to R448: the ends of a run, with the event 5 that CTRL asks for. -/
def ended (x : Slot) (code left : Nat) : Bool :=
  yields (.legacyRunEnd 6) (legacy { x with workCtrl := 0x5800, workCount := 64 }) fun t => (t.slot 6).state == 2 && (t.slot 6).code == code &&
    (t.slot 6).remaining == left && t.postsOf schedIsland 5 == 1
theorem test_legacy_run_end :
    ended { slot6 with state := 1 } 1 0 = true ∧ ended { slot6 with state := 1, faults := [{ status := .badPattern }] } Status.badPattern.code 64 = true ∧
    ended { slot6 with state := 3 } 0x1A 64 = true ∧
    ended { slot6 with state := 1, run := some (runOf (.move (s16 0x8000) (s16 0x9000)) 16) } 0 0 = true ∧
    answersWith (.legacyRunEnd 6) (legacy slot6) (legacy slot6) = true := by decide +kernel

/-! ## Links and nodes -/

def linked0 (k : Link) : State := base.setLink 0 k
/-- A block of zero frame bytes with its trailer (R300): the hypotheses of LINK_BLOCK on the fourth good block are met. -/
def block0 : List Byte := ({} : Link).trailer false 0 (List.replicate 1008 0)
theorem test_fourth_block : block0.length = 1024 ∧ blockGood block0 = true ∧ (linked0 { state := 1, lock := true, good := 3 }).canTrain 0 = true ∧
    ((linked0 { state := 1, lock := true, good := 3 }).link 0).good = 3 :=
  ⟨trailer_length _ _ _ _ (List.length_replicate ..), trailer_good _ _ _ _ (List.length_replicate ..), by decide +kernel, by decide +kernel⟩
def badBlock : List Byte := (List.replicate 1020 0 : List Byte) ++ leBytes 4 (crc32c (List.replicate 1020 0) + 1)
/-- R299, R313, R314: a bad block in step 1, a block that comes without lock, and one that finds the errors past their limit. -/
theorem test_other_blocks : badBlock.length = 1024 ∧ blockGood badBlock = false ∧
    ((linked0 { state := 1 }).link 0).lock = false ∧ ((linked0 { state := 1, lock := true, good := 2 }).link 0).good < 3 ∧
    (linked0 { state := 2, lock := true, errs := 2 ^ 20 }).obj 0x6043 0 ≠ 0 ∧
    (linked0 { state := 2, lock := true, errs := 2 ^ 20 }).obj 0x6043 0 < (({ state := 2, lock := true, errs := 2 ^ 20 } : Link).receive none block0).errs ∧
    (({ state := 2, lock := true, errs := 3 } : Link).receive none block0).errs ≤ (linked0 {}).obj 0x6043 0 := by
  have hg := test_fourth_block.2.1
  refine ⟨by rw [badBlock, List.length_append, List.length_replicate, leBytes_length], wrong_crc_bad _ (List.length_replicate ..), by decide +kernel, by decide +kernel, by decide +kernel, ?_, ?_⟩
  · rw [receive_training _ _ _ hg (by decide +kernel)]
    decide +kernel
  · rw [receive_training _ _ _ hg (by decide +kernel)]
    decide +kernel
/-- R313 to R315: lock, the fourth good block, the first beacon, the loss of lock and of beacons. -/
theorem test_link_training :
    base.canTrain 0 = true ∧
    yields (.linkLock 0) (linked0 { state := 4 }) (fun t => (t.link 0).state == 1 && (t.link 0).lock) = true ∧
    yields (.linkLock 0) (inMode .halt (linked0 { state := 4 })) (fun t => (t.link 0).state == 4 && (t.link 0).lock) = true ∧
    yields (.harebell 0 ⟨9, 7, 5, 1, 3, 1, 1⟩) (linked0 { state := 3, lock := true, rxNumber := 5 }) (fun t => (t.link 0).state == 3 &&
      (t.link 0).peerNode == 5 && (t.link 0).rxNumber == 5) = true ∧
    yields (.harebell 0 ⟨9, 7, 4, 1, 3, 1, 1⟩) (linked0 { state := 2, lock := true, rxNumber := 5 }) (fun t => (t.link 0).state == 3 &&
      (t.link 0).peerSerial == 9 && (t.link 0).peerNode == 4 && (t.link 0).rxNumber == 0) = true ∧
    yields (.harebell 0 ⟨9, 7, 4095, 0, 3, 1, 1⟩) (linked0 { state := 2, lock := true }) (fun t => (t.link 0).state == 5) = true ∧
    yields (.harebellSend 0) (linked0 { state := 3, lock := true }) (fun t => (t.link 0).tx.map (·.type) == [1]) = true := by decide +kernel
def halted0 (k : Link) : State := inMode .halt (linked0 k)
theorem test_link_loss :
    (halted0 { state := 3 }).canTrain 0 = false ∧
    yields (.linkLockLoss 0) (halted0 { state := 3, lock := true, replay := [⟨1, 0, false, []⟩] }) (fun t => (t.link 0).state == 4 && !(t.link 0).lock &&
      (t.link 0).replay.isEmpty) = true ∧
    yields (.beaconTimeout 0) (halted0 { state := 3, lock := true }) (fun t => (t.link 0).state == 4) = true ∧
    yields (.beaconTimeout 0) (linked0 { state := 3, lock := true }) (fun t => (t.link 0).state == 1) = true := by decide +kernel
/-- R314: the loss of lock puts the link's island in reset. -/
theorem test_lock_loss : ((linked0 { state := 3 }).island (linkIsland 0)).inReset = false ∧
    yields (.linkLockLoss 0) (linked0 { state := 3, lock := true, replay := [⟨1, 0, false, []⟩] }) (fun t => (t.island (linkIsland 0)).inReset &&
      (t.link 0).state == 4 && !(t.link 0).lock && (t.link 0).replay.isEmpty) = true := by decide +kernel
def wrResp0 : Frame := { type := 0x13, cls := 4, vl := 2, dest := 1, src := 2, tag := 5, payload := [] }
/-- R300 to R302, on short strings: the next NUMBER is accepted; a bad CRC and a gap ask for a replay. -/
theorem test_link_blocks :
    blockGood [] = true ∧ (({ state := 3, rxNumber := 4095 } : Link).receive none []).rxNumber = 0 ∧
    (({ state := 3, rxNumber := 8 } : Link).receive none []).nak = true ∧ (({ state := 3, rxNumber := 8 } : Link).receive none []).rxNumber = 8 ∧
    blockGood [1] = false ∧ (({ state := 3, rxNumber := 8 } : Link).receive none [1]).crcErrors = 1 ∧
    (({ state := 3, rxNumber := 8 } : Link).receive none [1]).nak = true := by decide +kernel
/-- R303, R304: the header's bits. -/
theorem test_frame_bytes :
    (frameBytes { wrResp0 with word := 3, payload := List.replicate 16 7 }).take 16 =
      [0x13, 0x12, 0x01, 0xF0, 0x02, 0x00, 0x05, 0x00, 0x03, 0, 0, 0, 0, 0, 0x08, 0x00] ∧
    frameOf (frameBytes { wrResp0 with payload := List.replicate 32 7 } ++ [1, 2]) = some ({ wrResp0 with payload := List.replicate 32 7 }, [1, 2]) := by
  decide +kernel
def adv (serial seq node : Nat) : Advert := ⟨serial, seq, node, 4095, (List.range 16).map fun l => (3, l == 0)⟩
/-- Node 1 with serial 7, an up link 0 to node 2. -/
def node1 (s : State) : State :=
  { s with fab := { s.fab with nodeId := some 1, nodeState := 1, links := [(0, { state := 3, lock := true, peerSerial := 9, peerNode := 2, peerDist := 1 })] } }
/-- R319, R321: adverts. -/
theorem test_adverts :
    yields .advertSend (node1 base) (fun t => t.fab.advertSeq == 2 && t.fab.adverts.map (·.1) == [7] && (t.link 0).tx.length == 1) = true ∧
    yields (.advert 0 (adv 9 4 2)) (node1 base) (fun t => t.fab.adverts == [(9, adv 9 4 2)]) = true ∧
    yields (.advert 0 (adv 9 4 2)) (let s := node1 base; { s with fab := { s.fab with adverts := [(9, adv 9 5 2)] } }) (fun t =>
      t.fab.adverts == [(9, adv 9 5 2)]) = true ∧
    yields (.advert 0 (adv 3 4 1)) (node1 base) (fun t => t.fab.nodeState == 3) = true ∧
    (let s := (node1 base).setLink 1 { state := 3, lock := true, peerSerial := 11, peerNode := 6 }
     s.forwards && yields (.advert 0 (adv 9 4 2)) s fun t => (t.link 1).tx == [{ advertFrame (adv 9 4 2) 2 with hops := 14 }] && (t.link 0).tx.isEmpty) = true ∧
    yields (.advert 0 (adv 7 0 1)) (node1 base) (fun t => t.fab.advertSeq == 1 && t.fab.adverts.isEmpty) = true ∧
    yields (.advert 0 (adv 7 40 1)) (node1 base) (fun t => t.fab.advertSeq == 42) = true ∧
    answersWith .advertSend (inMode .halt (node1 base)) (inMode .halt (node1 base)) = true ∧
    answersWith (.advert 3 (adv 9 4 2)) (node1 base) (node1 base) = true := by decide +kernel
/-- R303, R305: what is passed on keeps its SRC, and at HOPS 0 it is dropped and counted. -/
theorem test_pass_on :
    (let f : Frame := { advertFrame (adv 9 4 2) 6 with hops := 0 }
     let s := (node1 base).setLink 0 { (node1 base).link 0 with rx := [f] }
     s.rxFrame (advertFrame (adv 9 4 2) 2) = f ∧ yields (.advert 0 (adv 9 4 2)) s (fun t => (t.link 0).dropped == 1 && (t.link 0).rx.isEmpty) = true) := by
  decide +kernel
/-- Node 1 with the assigner, of serial 3, behind link 0. -/
def child : State := let s := node1 base; { s with fab := { s.fab with rootSerial := some 3 } }
/-- R318: a request goes on toward the assigner, its answer back by the way it came; in NODE_SPACE_FULL the node asks again. -/
theorem test_assign_routes :
    child.isRoot = false ∧ child.forwards = true ∧ child.parentLink.isSome = true ∧
    yields (.assignRequest 4 9 40) child (fun t => t.fab.returns == [(9, 4)] && (t.link 0).tx == [{ assignFrame false 9 40 4095 with hops := 14 }]) = true ∧
    yields (.assignAnswer 0 9 40 1) { child with fab := { child.fab with returns := [(9, 4)] } } (fun t =>
      (t.link 4).tx == [{ assignFrame true 9 (40 + 4096) 4095 with hops := 14 }]) = true ∧
    yields .assignRetry { child with fab := { child.fab with nodeState := 2, nodeId := none } } (fun t => (t.link 0).tx.length == 1) = true := by decide +kernel
/-- R316 to R320: identifiers. -/
theorem test_identifiers :
    base.isRoot = true ∧ base.forwards = true ∧
    yields (.assignRequest 0 9 40) base (fun t => t.fab.assigned == [(9, 40)] &&
      (t.link 0).tx == [assignFrame true 9 (40 + 4096) base.nodeNum]) = true ∧
    yields (.assignAnswer 0 7 12 1) base (fun t => t.fab.nodeId == some 12 && t.fab.nodeState == 1) = true ∧
    yields (.assignAnswer 0 7 4095 2) base (fun t => t.fab.nodeId == none && t.fab.nodeState == 2) = true ∧
    yields .assignRetry { base with fab := { base.fab with nodeState := 2 } } (fun t => t.fab.nodeState == 1) = true ∧
    base.obj 0x6005 0 ≠ 0 ∧
    yields (.idHoldExpiry 9) { base with fab := { base.fab with assigned := [(9, 40), (3, 2)] } } (fun t => t.fab.assigned == [(3, 2)]) = true := by
  decide +kernel
def far : Frame := { wrResp0 with dest := 2, src := 3 }
def routed1 (s : State) : State :=
  let t := node1 s
  { t with fab := { t.fab with routes := [(2, { primary := 0, hops := 1, primaryValid := true })] } }
/-- R303, R311, R322, R328: routes, forwarding, the escape lane. -/
theorem test_forwarding :
    yields .routeRecompute (let s := node1 base; { s with fab := { s.fab with adverts := [(7, s.advertNow 1), (9, { adv 9 4 2 with neighbours := [(1, true)] })] } })
      (fun t => t.fab.routes == [(2, { primary := 0, hops := 1, primaryValid := true })]) = true ∧
    yields (.frameForward 0 far) (let s := routed1 base; { s with fab := { s.fab with links := [] } }) (fun t =>
      (t.link 0).tx == [{ far with hops := 14 }]) = true ∧
    yields (.frameForward 0 { far with hops := 0 }) (let s := routed1 base; { s with fab := { s.fab with links := [] } }) (fun t =>
      (t.link 0).dropped == 1) = true ∧
    frameTypeKnown 0x7F = false ∧ routable { far with type := 0x7F } = true ∧
    yields (.frameForward 0 { far with type := 0x7F }) (routed1 base) (fun t => (t.link 0).dropped == 1) = true ∧
    (let s := routed1 base; { s with fab := { s.fab with nodeState := 2 } } : State).forwards = false ∧
    (child.treeHop { far with vl := 3 }).map (·.1) = some 0 ∧
    yields (.frameForward 2 { far with vl := 3 }) child (fun t => (t.link 0).tx.map (fun g => (g.vl, g.dest)) == [(3, 2)]) = true := by decide +kernel
def stuck : State :=
  let s := node1 base
  let t := s.setLink 1 { state := 3, peerNode := 5, spent := [(2, 1024)], tx := [far] }
  { t with fab := { t.fab with rootSerial := some 3 } }
theorem test_escape : (stuck.link 1).canSend far = false ∧ (stuck.treeHop far).map (·.1) = some 0 ∧
    yields (.escapeWait 1 far) stuck (fun t => (t.link 1).tx.isEmpty && (t.link 0).tx.map (·.vl) == [3]) = true := by decide +kernel

/-! ## Requests between nodes -/

/-- A frame from node 2 for node 1. -/
def from2 (type word : Nat) (payload : List Byte) : Frame := { type := type, cls := 4, vl := 1, dest := 1, src := 2, tag := 5, word := word, payload := payload }
/-- INBOUND_SET 0 lets node 2 reach memory. -/
def serving (s : State) : State := { routed1 s with dict := { values := [(objKey 0x6030 0, 0)] } }
def lastTx (t : State) : Option (Nat × Nat × Nat) := (t.link 0).tx.getLast?.map fun f => (f.type, f.tag, f.word)
/-- R324: by the mode of the node. -/
theorem test_requests_by_mode :
    yields (.rdReq (from2 0x10 0x8000 (leBytes 16 64))) (inMode .config (serving base)) (fun t => lastTx t == some (0x13, 5, 3)) = true ∧
    yields (.wrReq (from2 0x12 0x8000 [1, 2])) (inMode .recover (serving base)) (fun t => t.fab.held.length == 1) = true ∧
    yields (.wrReq (from2 0x12 0x8000 [1, 2])) (inMode .recover { serving base with fab := { (serving base).fab with held := [(0, from2 0x12 0x8000 [1, 2])] } })
      (fun t => t.fab.held.length == 1) = true ∧
    answersWith (.seal (from2 0x16 0 [])) (inMode .halt (serving base)) (inMode .halt (serving base)) = true ∧
    answersWith (.piece { from2 0x14 0 [] with dest := 6 }) (serving base) (serving base) = true := by decide +kernel
/-- R305, R325: reads and writes of another node. -/
theorem test_inbound :
    takeFrom (from2 0x10 0x8000 []) (serving base).fab.links = none ∧
    (serving base).inboundOk rightRead 0x8000 64 = true ∧ (serving base).portOf 0x8000 = some 0 ∧
    yields (.rdReq (from2 0x10 0x8000 (leBytes 16 64))) (serving base) (fun t =>
      (t.port 0).rd.queue.map (fun r => (r.owner, r.beats.map fun b => (b.addr, b.len))) == [(.inboundRead 2 5, [(0x8000, 64)])]) = true ∧
    yields (.rdReq (from2 0x10 0x8000 (leBytes 16 64))) (routed1 base) (fun t => lastTx t == some (0x13, 5, 2)) = true ∧
    yields (.rdReq (from2 0x10 (2 ^ 40) (leBytes 16 64))) (serving base) (fun t => lastTx t == some (0x13, 5, 1)) = true ∧
    answersWith (.rdReq (from2 0x10 0x8000 (leBytes 16 0))) (serving base) ((serving base).takeRx (from2 0x10 0x8000 (leBytes 16 0))) = true ∧
    yields (.wrReq (from2 0x12 0x8000 [])) (serving base) (fun t => lastTx t == some (0x13, 5, 0)) = true ∧
    yields (.wrReq (from2 0x12 (2 ^ 40) [1])) (serving base) (fun t => lastTx t == some (0x13, 5, 1)) = true ∧
    (serving base).inboundOk rightWrite 0x8000 2 = true ∧ (serving base).stashOf 0x8000 = none ∧
    yields (.wrReq (from2 0x12 0x8000 [1, 2])) (serving base) (fun t =>
      (t.port 0).wr.queue.map (fun r => (r.owner, r.beats.map (·.data))) == [(.inboundWrite 2 5, [[(0x8000, 1), (0x8001, 2)]])]) = true ∧
    yields (.wrReq (from2 0x12 0x8000 [1, 2])) (routed1 base) (fun t => lastTx t == some (0x13, 5, 2)) = true := by decide +kernel
/-- The header of a piece of galley 5 of the stream of context 3 of node 2, sequence 4, piece 0 (R329). -/
def pieceBytes : List Byte := leBytes 4 5 ++ leBytes 4 (3 + 2 * 2 ^ 18) ++ leBytes 8 4 ++ leBytes 16 (2 ^ 32)
def markIn : PushMark := { galley := 5, stream := ⟨2, 3⟩, seq := 4, ord := 0, attempt := 1, state := .sealed, slot := 1 }
/-- R329 to R331, R112: pieces, seals, notices and markers. -/
theorem test_pool_frames :
    yields (.piece (from2 0x14 0 (pieceBytes ++ List.replicate 16 9))) (serving base) (fun t => t.pool.pieces.map (fun p =>
      (p.galley, p.stream, p.seq, p.attempt, p.data.length)) == [(5, ⟨2, 3⟩, 4, 1, 16)]) = true ∧
    yields (.seal (from2 0x16 0 pieceBytes)) (serving base) (fun t => t.pool.seals.length == 1) = true ∧
    yields (.noticeRelease (from2 0x18 1 pieceBytes)) (let s := serving base; { s with pool := { s.pool with marks := [markIn] } }) (fun t =>
      t.pool.marks.isEmpty && lastTx t == some (0x19, 5, 0)) = true ∧
    yields (.noticeDiscard (from2 0x18 2 pieceBytes)) ((serving base).setGalley 5 { g8 with units := [{ unit1 with stream := ⟨2, 3⟩, seq := 4 }] }) (fun t =>
      (t.galley 5).units.isEmpty) = true ∧
    (let s := serving base; { s with pool := { s.pool with marks := [markIn] } } : State).pieceAct (pieceOf (from2 0x18 2 pieceBytes)) = .drop .ok ∧
    yields (.noticeDiscard (from2 0x18 2 pieceBytes)) (let s := serving base; { s with pool := { s.pool with marks := [markIn] } }) (fun t =>
      t.pool.marks == [markIn] && lastTx t == some (0x19, 5, 0)) = true ∧
    yields (.noticeRoom (from2 0x18 3 pieceBytes)) (serving base) (fun t => lastTx t == some (0x19, 5, 0)) = true ∧
    yields (.ruleMark (from2 0x1A 0 [])) (serving base) (fun t => lastTx t == some (0x1B, 5, 0) && t.fab.markers.isEmpty) = true ∧
    yields (.ruleMark (from2 0x1A 0 [])) (busy3 (serving (withCtx (running item0)))) (fun t => t.fab.markers.length == 1) = true := by decide +kernel
/-- A request of context 3's op 4 for 16 bytes of node 2, sent with tag 5. -/
def remote (o : Owner) (attempts : Nat) : Remote :=
  { tag := 5, owner := o, frame := { type := 0x10, cls := 4, vl := 1, dest := 2, src := 1, tag := 5, word := 0x8000 }, attempts := attempts
    offset := 0, len := 16, side := 0, first := 2 ^ 51 * 2 + 0x8000 }
def asking (o : Owner) (attempts : Nat) (q : OpRun) : State :=
  let s := routed1 (withCtx (running { item0 with run := some q }))
  { s with fab := { s.fab with remotes := [remote o attempts] } }
def reading : OpRun := { runOf (.move (s16 0x8000) (s16 0x9000)) 16 with segs := [{ lo := 0, hi := 16, state := .reading }], done := 0 }
def pushing : OpRun := { runOf (.push 5 0x8000 16 false true false) 16 with segs := [{ lo := 0, hi := 16, state := .sent }], done := 0, seals := [0] }
def ans (type word : Nat) (payload : List Byte) : Frame := { type := type, cls := 4, vl := 2, dest := 1, src := 2, tag := 5, word := word, payload := payload }
/-- R305, R306: the answers to this node's requests. -/
theorem test_answers :
    yields (.rdData (ans 0x11 0x8000 (List.replicate 16 7))) (asking (.opRead 3 4 0) 1 reading) (fun t => t.fab.remotes.isEmpty &&
      (t.run 3).any fun q => q.buf.length == 16 && q.buf.contains (bufKey 0 15, 7)) = true ∧
    yields (.wrResp (ans 0x13 0 [])) (asking (.opWrite 3 4 0) 1 reading) (fun t => t.fab.remotes.isEmpty) = true ∧
    yields (.noticeAns (ans 0x19 0 [])) (asking (.notice 3) 1 reading) (fun t => t.fab.remotes.isEmpty) = true ∧
    yields (.pieceAns (ans 0x15 0 [])) (asking (.piece 3 4 0 0) 1 pushing) (fun t => t.fab.remotes.isEmpty &&
      (t.run 3).any fun q => q.segs.map (fun g => (g.state, g.delivered)) == [(.complete, [0])]) = true ∧
    yields (.sealAns (ans 0x17 0 [])) (asking (.seal 3 4 0) 1 pushing) (fun t => (t.run 3).any fun q => q.seals.isEmpty) = true ∧
    yields (.ruleAns (ans 0x1B 0 [])) (let s := asking (.ruleMark 3 2) 1 reading
        { s with sched := { s.sched with rules := [⟨3, 4, 3, 0, [], [2, 5]⟩] } }) (fun t => t.sched.rules.map (·.nodes) == [[5]]) = true := by
  decide +kernel
/-- R332: the answer to a marker's first attempt completes it too. -/
theorem test_old_answer :
    (let s := asking (.ruleMark 3 2) 1 reading
     let t : State := { s with fab := { s.fab with remotes := [{ remote (.ruleMark 3 2) 2 with tag := 6, oldTags := [5] }] } }
     (t.asked (ans 0x1B 0 [])).isSome ∧ yields (.ruleAns (ans 0x1B 0 [])) t (fun u => u.fab.remotes.isEmpty) = true) := by decide +kernel
/-- R305: an answer to no request is dropped. -/
theorem test_answers_to_none : (routed1 base).asked (ans 0x13 0 []) = none ∧
    ([.rdData (ans 0x11 0 []), .wrResp (ans 0x13 0 []), .pieceAns (ans 0x15 0 []), .sealAns (ans 0x17 0 []), .noticeAns (ans 0x19 0 []),
      .ruleAns (ans 0x1B 0 [])] : List Instr).all (fun i => answersWith i (routed1 base) (routed1 base)) = true := by decide +kernel
/-- R256, R267, R306, R326, R327: retries and failures. -/
theorem test_remote_errors :
    yields (.wrResp (ans 0x13 1 [])) (asking (.opWrite 3 4 0) 1 reading) (fun t => t.fab.remotes.map (·.attempts) == [2]) = true ∧
    base.obj 0x6040 0 ≠ 0 ∧
    yields (.remoteTimeout 5 77) (asking (.opRead 3 4 0) 1 reading) (fun t => t.fab.remotes.map (fun r => (r.tag, r.attempts)) == [(77, 2)]) = true ∧
    yields (.remoteTimeout 5 77) (asking (.opRead 3 4 0) 4 reading) (fun t => t.fab.remotes.isEmpty && (t.ctx 3).halting &&
      (t.ctx 3).faults.map (fun f => (f.status, f.cause, f.attempts)) == [(.busFault, 3, 4)]) = true ∧
    answersWith (.remoteTimeout 5 77) { base with dict := { values := [(objKey 0x6040 0, 0)] } } { base with dict := { values := [(objKey 0x6040 0, 0)] } } = true ∧
    (serving base).arrives (ans 0x20 0 []) 0x20 = true ∧ answersWith (.busy (ans 0x20 0 [])) (serving base) ((serving base).takeRx (ans 0x20 0 [])) = true ∧
    yields (.busySend 2 5) (let s := inMode .recover (routed1 base); { s with fab := { s.fab with held := [(0, from2 0x10 0 [])] } }) (fun t =>
      lastTx t == some (0x20, 5, 0)) = true ∧
    (routed1 base).serviceWaits 2 5 = false ∧ base.obj 0x6041 0 ≠ 0 ∧ (routed1 base).reachable 2 = true ∧
    yields (.routeWait 3) (routed1 (withCtx { running item0 with state := .waiting, waitOn := some (.route 2 9) })) (fun t =>
      (t.ctx 3).waitOn.isNone && (t.ctx 3).state == .running && !(t.ctx 3).halting) = true ∧
    yields (.routeWait 3) (withCtx { running item0 with state := .waiting, waitOn := some (.route 2 9) }) (fun t => (t.ctx 3).halting &&
      (t.ctx 3).faults.map (fun f => (f.status, f.detail, f.offset)) == [(.nodeUnreachable, 2, 9)]) = true := by decide +kernel

/-! ## The islands -/

/-- R349 to R352: resets and faults of islands. -/
theorem test_island_resets :
    isCentral 20 = false ∧ isCentral 17 = true ∧
    yields (.islandResetAssert 20) base (fun t => (t.island 20).inReset && (t.island 20).rstLow) = true ∧
    yields (.islandResetAssert 17) (withCtx ctx3) (fun t => t.ctxs.isEmpty && (t.island 17).inReset) = true ∧
    yields (.islandFault 17) (withCtx ctx3) (fun t => t.ctxs.isEmpty) = true ∧
    yields (.islandResetRelease ⟨20, true⟩) (base.setIsland 20 { inReset := true, rstLow := true, clockPresent := true }) (fun t => !(t.island 20).inReset) = true ∧
    yields (.islandResetRelease ⟨20, false⟩) (base.setIsland 20 { inReset := true, rstLow := true, clockPresent := true }) (fun t => (t.island 20).inReset && !(t.island 20).rstLow) = true ∧
    yields (.islandResetRelease ⟨20, true⟩) (base.setIsland 20 { inReset := true, rstLow := true }) (fun t => (t.island 20).inReset && !(t.island 20).rstLow) = true ∧
    yields (.islandFault 3) base (fun t => (t.island 3).retired && (t.island 3).fault && (t.island 3).faults == 1) = true ∧
    yields (.islandFault 20) base (fun t => (t.island 20).inReset && (t.island 20).fault) = true ∧
    answersWith (.islandResetAssert 0) base base = true := by decide +kernel
/-- R337, R338, R358: clocks. -/
theorem test_clocks :
    yields (.clockLost 20) base (fun t => !(t.island 20).clockPresent && Tab.get zeroTab t.ctl.eventCount 15 == 1) = true ∧
    yields (.clockLost 20) (base.setPort 2 { hold := true }) (fun t => (t.island 20).clockPaused && Tab.get zeroTab t.ctl.eventCount 15 == 0) = true ∧
    yields (.clockReturn 20) (base.setIsland 20 { inReset := false }) (fun t => (t.island 20).clockPresent) = true := by decide +kernel
/-- R347: what stands at a port whose clock stops hangs; POOL goes on once its clock is back. -/
theorem test_clock_hang :
    portIsland 0 = 18 ∧ base.onHold 18 = false ∧
    yields (.clockLost 18) (port0 { wr := { queue := [req0 3 4] } }) (fun t => (t.port 0).wr.queue.map (·.hung) == [true]) = true ∧
    (let s := (poolWith g8 [piece1] []).setIsland poolIsland { inReset := false }
     s.unitWaits poolIsland = true ∧ yields (.clockReturn poolIsland) s (fun t => !t.unitWaits poolIsland) = true) ∧
    yields (.clockReturn jrnIsland) (base.setIsland jrnIsland { inReset := false }) (fun t => !t.unitWaits jrnIsland) = true := by decide +kernel
/-- R353: the power-down handshake. -/
theorem test_power :
    (base.setIsland 42 { base.island 42 with pdreq := true }).powerIdle 42 = true ∧
    yields (.powerDownRequest 42) base (fun t => (t.island 42).pdreq && !(t.island 42).gated) = true ∧
    yields (.powerDownAck 42) (base.setIsland 42 { base.island 42 with pdreq := true }) (fun t => (t.island 42).pdack && (t.island 42).gated) = true ∧
    answersWith (.powerDownAck 17) (base.setIsland 17 { base.island 17 with pdreq := true }) (base.setIsland 17 { base.island 17 with pdreq := true }) = true ∧
    yields (.powerDownAck 18) ((port0 { qreq := true, qack := true }).setIsland 18 { base.island 18 with pdreq := true }) (fun t =>
      (t.island 18).gated && !(t.port 0).qack) = true ∧
    yields (.powerDownAck 26) ((base.setLink 0 { txBlock := [1] }).setIsland 26 { base.island 26 with pdreq := true }) (fun t =>
      (t.island 26).gated && (t.link 0).txBlock.isEmpty) = true ∧
    yields (.powerDownRelease ⟨42, true⟩) (base.setIsland 42 { base.island 42 with pdreq := true, pdack := true, gated := true }) (fun t =>
      !(t.island 42).pdreq && (t.island 42).inReset) = true ∧
    yields (.powerDownRelease ⟨42, true⟩) (base.setIsland 42 { base.island 42 with pdreq := true }) (fun t => !(t.island 42).inReset) = true := by decide +kernel
def posted (n : Nat) : State := { base with ctl := { base.ctl with posts := [(postKey 1 5, n)], evtPending := [(5, 65534)] } }
/-- R345, R433: events move to their wire while it has room. -/
theorem test_events :
    yields (.eventRound 1 5) (posted 3) (fun t => t.postsOf 1 5 == 2 && Tab.get zeroTab t.ctl.evtPending 5 == 65535) = true ∧
    yields (.evtPulse 5) (posted 3) (fun t => Tab.get zeroTab t.ctl.evtPending 5 == 65533 && Tab.get zeroTab t.ctl.evtPulses 5 == 1) = true ∧
    answersWith (.evtPulse 4) (posted 3) (posted 3) = true ∧
    yields (.eventRound 1 5) { posted 32767 with ctl := { (posted 32767).ctl with owed := [(postKey 1 5, 2)] } } (fun t =>
      t.postsOf 1 5 == 32767 && Tab.get zeroTab t.ctl.owed (postKey 1 5) == 1) = true := by decide +kernel
def tile : PortReq := { req0 3 4 with beats := [beat0] }
def stash0 (k : StashPort) : State := base.setStash 0 k
/-- R363 to R366, R427: tiles. -/
theorem test_tiles :
    yields (.wakeLead 0) (stash0 { wake := true }) (fun t => (t.stashPort 0).leadPassed) = true ∧
    base.obj 0x3303 1 ≠ 0 ∧ yields (.wakeIdle 0) (stash0 { wake := true, leadPassed := true }) (fun t => !(t.stashPort 0).wake) = true ∧
    answersWith (.wakeIdle 0) (stash0 { wake := true, tiles := [tile] }) (stash0 { wake := true, tiles := [tile] }) = true ∧
    yields (.stashTileTaken 0) (stash0 { wake := true, leadPassed := true, tiles := [tile] }) (fun t => t.mem == [(0x9000, 5), (0x9001, 6)] &&
      (t.stashPort 0).tiles.isEmpty) = true ∧
    yields (.stashTileTaken 0) (stash0 { wake := true, leadPassed := true, tiles := [tile, tile] }) (fun t => (t.stashPort 0).tiles == [tile]) = true ∧
    answersWith (.stashTileTaken 0) base base = true ∧ answersWith (.wakeLead 0) base base = true ∧
    yields (.stashTileRefused 0) (stash0 { wake := true, leadPassed := true, tiles := [tile] }) (fun t => (t.stashPort 0).refused) = true ∧
    base.obj 0x3302 1 ≠ 0 ∧
    yields (.stashFallback 0) (stash0 { wake := true, leadPassed := true, refused := true, tiles := [tile] }) (fun t => (t.stashPort 0).tiles.isEmpty &&
      (t.stashPort 0).fallbacks == 1 && (t.port 0).wr.queue.map (fun r => (r.owner, r.requester, r.beats.map (·.data))) == [(.opWrite 3 4 0, 0, [beat0.data])]) = true ∧
    base.tileLane = some 0 ∧
    (let s : State := { stash0 { wake := true, leadPassed := true, refused := true, tiles := [tile] } with sched := { base.sched with lanes := (List.range 26).map fun l => (l, 2) } }
     s.tileLane = none ∧ answersWith (.stashFallback 0) s s = true) := by decide +kernel
/-- R434, R435, R463: the test access and the scrubber. -/
theorem test_test_access :
    yields (.testWrapRequest 20) base (fun t => (t.island 20).testStatus == 4 && !t.tapReset) = true ∧
    yields (.testWrapRequest 20) (base.setIsland 20 { inReset := true }) (fun t => (t.island 20).testStatus == 0) = true ∧
    yields .testAccessReset base (fun t => t.tapReset) = true ∧
    yields (.scrub 0x1234 true) base (fun t => t.scrub.corrected == 1) = true ∧
    yields (.scrub 0x1234 false) (withCtx ctx3) (fun t => t.ctxs.isEmpty && t.scrub.uncorrected == 1 && t.scrub.address == 0x1230) = true := by decide +kernel

/-! ## What the commands leave alone -/

/-- One command of each list answers, so that the frames speak of something. -/
theorem test_frames_have_runs :
    ([(.nop 3, steer {} [0]), (.loop 3, steer {} (leBytes 4 0x10 ++ leBytes 4 5)), (.move 3, patterned (op8 1 0x5000 0x5040 0) 16 16),
      (.itemEnd 3, withCtx (running { item0 with ended := true })), (.memHoldAssert 0, base), (.readDataReturn 0 5 true, base),
      (.writeResponse 0 5 false true, base), (.wakeLead 0, base), (.stashTileTaken 0, base), (.stashFallback 0, base), (.linkLock 0, base),
      (.advert 0 (adv 9 4 2), node1 base), (.rdReq (from2 0x10 0x8000 []), serving base), (.rdData (ans 0x11 0 []), base), (.journalReclaim, base),
      (.twinAckTimeout, base), (.twinShip 2 9 4 false [], base), (.room 5, base), (.eventRound 1 5, base), (.testEnd 26 true, base),
      (.clockReturn 20, base), (.doorbellResponseTaken 9, base), (.wait 3, wait7 0 7), (.ruleStream 3, prog item0 (rule 0)),
      (.signalEvent 3, steer {} (signal 1 0 0 0 0 15)), (.opComplete 3, prog { item0 with opDone := true } [0]), (.popReturn 3, popState g2 0)] ++
     [(.throttleAssert 1, base), (.memHoldLong 0, port0 { hold := true }), (.arbitrationRound 0 true 10 [77], port0 { wr := { queue := [req0 3 4] } }),
      (.domainReturn 0, port0 { qreq := true, qack := true }), (.wakeIdle 0, base), (.linkLockLoss 0, linked0 { state := 3, lock := true }),
      (.harebell 0 ⟨9, 7, 4, 1, 3, 1, 1⟩, linked0 { state := 2, lock := true }), (.remoteTimeout 5 77, asking (.opRead 3 4 0) 1 reading)] ++
     [(.journalWriteRetry, base), (.reexecutionScan, base), (.twinReady 2 true false 4, base), (.twinHello 2 1 6 64, keeper {}), (.twinLossLimit, base),
      (.poolPiece 0, poolWith g8 [piece1] []), (.clockLost 20, base), (.islandResetRelease ⟨20, true⟩, base), (.powerDownRelease ⟨20, true⟩, base), (.domainLimit 3, base), (.powerDownRequest 42, base),
      (.powerDownAck 42, base.setIsland 42 { base.island 42 with pdreq := true }), (.contextLoad 3 0, withCtx { ctx3 with cached := false })] : List (Instr × State)).all (fun e => (after e.1 e.2).isSome) = true := by
  decide +kernel

/-! ## The rules stated whole -/

/-- R92: the fourth loop, and the rest of the structure (with test_endloop and test_link). -/
theorem test_fourth_loop :
    isFront (steer { loops := [frame0, frame0, frame0] } (leBytes 4 0x10 ++ leBytes 4 5)) 0x10 false = true ∧
    badOpHalt (.loop 3) (steer { loops := [frame0, frame0, frame0] } (leBytes 4 0x10 ++ leBytes 4 5)) = true ∧
    yields (.loop 3) (steer { loops := [frame0, frame0] } (leBytes 4 0x10 ++ leBytes 4 5)) (fun t => item1 t fun x => x.loops.length == 3) = true := by
  decide +kernel
/-- R108: the EVENT signal makes no access and no record. -/
theorem test_event_signal :
    signalOk (signal 1 0 0 0 0 15 ++ [0, 0, 0, 0, 0]) = true ∧ signalReady (steer {} (signal 1 0 0 0 0 15)) = true ∧
    yields (.signalEvent 3) (steer {} (signal 1 0 0 0 0 15)) (fun t => t.postsOf schedIsland 15 == 1 && t.ports == (steer {} (signal 1 0 0 0 0 15)).ports &&
      t.mem == (steer {} (signal 1 0 0 0 0 15)).mem) = true := by decide +kernel
/-- R35: a repeated item is passed, and only the acceptance word is written. -/
def repeated : State := (slotBytes 1 2 4).modCtx 3 fun x => { x with accepted := 9 }
theorem test_refused_item : headerOk repeated = true ∧ (repeated.firstDenied 0 rightRead 0x10000 2048) = none ∧
    yields (.formeHeaderFetched 3) repeated (fun t => t.mem == repeated.mem && (t.ctx 3).items.isEmpty && (t.ctx 3).consumer == 1 &&
      (t.port 0).wr.queue.all fun r => r.owner == .acceptWord 3) = true := by decide +kernel
/-- R254: ABORT of a header halt. -/
def headerHalted (producer : BitVec 32) : Ctx := { ctx3 with state := .halted, headerHalt := true, producer := producer }
theorem test_header_abort :
    chanCmd .channelAbort 3 (headerHalted 1) (fun t => (t.ctx 3).consumer == 1 && !(t.ctx 3).headerHalt && (t.ctx 3).state == .idle) = true ∧
    chanCmd .channelAbort 3 (headerHalted 0) (fun t => (t.ctx 3).consumer == 1 && (t.ctx 3).producer == 1 && !(t.ctx 3).headerHalt) = true ∧
    chanCmd .channelAbort 3 (headerHalted 2) (fun t => (t.ctx 3).consumer == 1 && (t.ctx 3).header == .asked &&
      (t.port 0).rd.queue.all (fun r => r.owner == .header 3) && !(t.port 0).rd.queue.isEmpty && (t.port 0).wr.queue.isEmpty) = true := by decide +kernel
/-- R378: the COMMIT service. -/
def commitReq (i : Nat) : Request := rd 5 i 0 0 0 0 []
theorem test_commit_service :
    yields .commit (asked (commitReq 0x2F00) stagedOne) (fun t => t.dict.staged.isEmpty && t.obj 0x4011 0 == 7 && t.ctl.waiting.isEmpty) = true ∧
    yields .commit (asked (commitReq 0x2F01) stagedOne) (fun t => t.ctl.lastAbort == 0x10000002 && t.ctl.waiting.isEmpty) = true := by decide +kernel
/-- R444: ABORT with START. -/
theorem test_abort_and_start :
    yields (.legacyAbort (.window 9) 6 3) (legacy { slot6 with state := 1 }) (fun t => (t.slot 6).state == 3 && (t.slot 6).startIgnored) = true ∧
    yields (.legacyAbort (.window 9) 6 3) (legacy slot6) (fun t => (t.slot 6).state == 1) = true ∧
    asksW (.legacyAbort .dictionary 6 3) (wr 0x8006 5 8 3) (dictOwns { slot6 with state := 1 }) (fun t => (t.slot 6).state == 3 &&
      t.ctl.lastAbort == 0x50000001) = true ∧
    asksW (.legacyAbort .dictionary 6 3) (wr 0x8006 5 8 3) (dictOwns slot6) (fun t => (t.slot 6).state == 1) = true := by decide +kernel

end Sys2Proof.Tests
end

section
/-! PROOFS. The protection unit (R398 to R404): keys, PROPOSED, NONCE and tags, and PROTECT_COMMIT. -/
namespace Sys2Proof.Machine

/-! ## Tables -/

/-- Bytes placed from an address on, each changed by its place, read back so; every other index reads as before. -/
theorem Tab.get_putAll_map_placed (d : Nat → Byte) (f : Nat → Byte → Byte) (t : Tab Byte) (a : Nat) (bs : List Byte) (o : Nat) :
    Tab.get d (Tab.putAll d t ((placed a bs).map fun e => (e.1, f e.1 e.2))) o =
      if a ≤ o ∧ o < a + bs.length then f o (bs.getD (o - a) 0) else Tab.get d t o := by
  induction bs generalizing a t with
  | nil => rw [if_neg (by simp)]; rfl
  | cons b r ih =>
    rw [placed_cons, List.map_cons, Tab.putAll, ih, Tab.get_put, List.length_cons]
    obtain h | h | h := Nat.lt_trichotomy o a
    · rw [if_neg (by omega), if_neg (by omega), if_neg (by omega)]
    · subst h
      rw [if_neg (by omega), if_pos rfl, if_pos (by omega), Nat.sub_self, List.getD_cons_zero]
    · rw [if_neg (show a ≠ o by omega)]
      by_cases hr : o < a + 1 + r.length
      · rw [if_pos (by omega), if_pos (by omega), show o - a = o - (a + 1) + 1 by omega, List.getD_cons_succ]
      · rw [if_neg (by omega), if_neg (by omega)]

/-- A table that lists the indexes of l at which f differs from the default reads as f there. -/
theorem Tab.get_filterMap_ne_default (d f : Nat → Byte) (l : List Nat) (o : Nat) (ho : o ∈ l) :
    Tab.get d (l.filterMap fun k => if f k = d k then none else some (k, f k)) o = f o := by
  have h : ∀ l : List Nat, Tab.get d (l.filterMap fun k => if f k = d k then none else some (k, f k)) o =
      if o ∈ l then f o else d o := by
    intro l
    induction l with
    | nil => rfl
    | cons k l ih =>
      by_cases hk : f k = d k
      · simp only [List.filterMap_cons, if_pos hk, ih]
        by_cases e : o = k
        · subst e; simp [hk]
        · simp [e]
      · simp only [List.filterMap_cons, if_neg hk, Tab.get, ih]
        by_cases e : o = k
        · subst e; simp
        · simp [e, Ne.symm e]
  rw [h, if_pos ho]

/-! ## Requests served, and what their answers leave -/

theorem service_of_asks {s : State} {r : Request} {n : Nat} (h : Claims.asks s r n) : r.service = n := by
  obtain ⟨-, -, -, hs, -⟩ := h
  exact hs
/-- Only a COMMIT is turned into a write of its own (R378). -/
theorem Request.asWrite_self (r : Request) (h : r.service ≠ 5) : r.asWrite = r := if_neg h

theorem State.serveFor_segWrite (s : State) (r : Request) (named : Request → Bool) (h : Claims.asks s r 4)
    (hn : named r = true) : s.serveFor named = s.reply r (s.writeSegment r) := by
  obtain ⟨hw, ha, -, hs, hf, ho⟩ := h
  have hr := r.asWrite_self (by omega)
  rw [s.serveFor_front named r hw hn]
  unfold State.serve; simp only [ha, hf, hr, ho, hs]; rfl
theorem State.serveFor_read (s : State) (r : Request) (named : Request → Bool) (h : Claims.asks s r 1)
    (hn : named r = true) : s.serveFor named = s.readRequest r := by
  obtain ⟨hw, ha, -, hs, hf, ho⟩ := h
  have hr := r.asWrite_self (by omega)
  rw [s.serveFor_front named r hw hn]
  unfold State.serve; simp only [ha, hf, hr, ho, hs]; rfl
theorem State.serveFor_write (s : State) (r : Request) (named : Request → Bool) (i sub v : Nat)
    (h : Claims.writes s r i sub v) (hn : named r = true) : s.serveFor named = s.reply r (s.writeObject i sub v) := by
  obtain ⟨hw, ha, -, hs, rfl, rfl, rfl, hf, ho⟩ := h
  rw [s.serveFor_front named r hw hn, s.serve_write r ha hs hf ho]

theorem State.reply_ok_mem (s t : State) (r : Request) : (s.reply r (.ok t)).mem = t.mem := (s.reply_keeps t r).1
theorem State.reply_ok_prot (s t : State) (r : Request) : (s.reply r (.ok t)).prot = t.prot := by
  obtain ⟨-, -, -, -, -, -, -, -, -, -, -, h, -⟩ := s.reply_keeps t r
  exact h

theorem State.answerRequest_prot (s : State) (r : Request) (flags : Nat) (d : List Byte) :
    (s.answerRequest r flags d).prot = s.prot := by rw [(Answered.answerRequest s r flags d).eq]
theorem State.refuseRequest_mem (s : State) (r : Request) (code : Nat) : (s.refuseRequest r code).mem = s.mem := by
  rw [(Answered.refuseRequest s r code).eq]
theorem State.refuseRequest_prot (s : State) (r : Request) (code : Nat) : (s.refuseRequest r code).prot = s.prot := by
  rw [(Answered.refuseRequest s r code).eq]

theorem State.sendBody_lastAbort (s : State) (w : Route) (b : List Byte) :
    (s.sendBody w b).ctl.lastAbort = s.ctl.lastAbort := by
  cases w with
  | bytePort => rfl
  | node n => simp only [State.sendBody, State.sendFrame_ctl]
theorem State.answerRepeats_lastAbort (n : Nat) : ∀ s : State, (s.answerRepeats n).ctl.lastAbort = s.ctl.lastAbort := by
  induction n with
  | zero => intro s; rfl
  | succ n ih =>
    intro s
    unfold State.answerRepeats
    split
    · split
      · rw [ih, State.sendBody_lastAbort]
      · rfl
    · rfl
/-- The code of a refusal stands in LAST_ABORT, whatever repeats are answered behind it. -/
theorem State.refuseRequest_lastAbort (s : State) (r : Request) (code : Nat) :
    (s.refuseRequest r code).ctl.lastAbort = code := by
  unfold State.refuseRequest State.answerRequest
  rw [State.answerRepeats_lastAbort, State.sendBody_lastAbort]

/-- An act that left JRN and POOL nothing to write is answered in the same step. -/
theorem State.reply_later_returned (s t : State) (r : Request) (due : Option (Nat × Nat × Nat)) (a : After)
    (hu : t.upkeepCount = s.upkeepCount) (hp : t.pool.jobs.contains .answer = false) :
    s.reply r (.later t due a) = t.returned r due a := by
  unfold State.reply State.effected
  exact if_neg (by rw [hu, hp]; simp)

/-! ## Keys and tags (R399, R400) -/

theorem Protect.take_active (p : Protect) (i off : Nat) (bs : List Byte) (first last : Bool) :
    (p.take i off bs first last).active = p.active := by
  cases last with
  | false => rfl
  | true => simp only [Protect.take, if_true]; split <;> rfl
/-- A segment without LAST is kept aside: no key is held for it. -/
theorem Protect.take_unfinished_keys (p : Protect) (i off : Nat) (bs : List Byte) (first : Bool) :
    (p.take i off bs first false).keyA = p.keyA ∧ (p.take i off bs first false).keyB = p.keyB := ⟨rfl, rfl⟩
theorem Protect.take_keyA (p : Protect) (off : Nat) (bs : List Byte) : p.take 0x5010 off bs true true =
    { p with partials := Tab.erase 0x5010 p.partials, keyA := some (patch (List.replicate (domainSize 0x5010) 0) off bs) } := rfl
theorem Protect.take_keyB (p : Protect) (off : Nat) (bs : List Byte) : p.take 0x5011 off bs true true =
    { p with partials := Tab.erase 0x5011 p.partials, keyB := some (patch (List.replicate (domainSize 0x5011) 0) off bs) } := rfl
theorem Protect.take_tagA (p : Protect) (off : Nat) (bs : List Byte) : p.take 0x5102 off bs true true =
    { p with partials := Tab.erase 0x5102 p.partials, tagA := some (patch (List.replicate (domainSize 0x5102) 0) off bs) } := rfl
theorem Protect.take_tagB (p : Protect) (off : Nat) (bs : List Byte) : p.take 0x5103 off bs true true =
    { p with partials := Tab.erase 0x5103 p.partials, tagB := some (patch (List.replicate (domainSize 0x5103) 0) off bs) } := rfl

theorem State.writeSegment_key (s : State) (r : Request) (hi : r.index = 0x5010 ∨ r.index = 0x5011) (hm : s.ctl.mode = .config) :
    s.writeSegment r = .ok { s with prot := s.prot.take r.index r.offset r.data r.first r.last } := by
  obtain hi | hi := hi <;> simp only [State.writeSegment, hi] <;> exact if_neg (by simp [hm])
theorem State.writeSegment_tag (s : State) (r : Request) (hi : r.index = 0x5102 ∨ r.index = 0x5103) : s.writeSegment r =
    if s.prot.nonce = none then .refuse 0x60000003
    else .ok { s with prot := s.prot.take r.index r.offset r.data r.first r.last } := by
  obtain hi | hi := hi <;> simp only [State.writeSegment, hi, State.segTag, Option.isNone_iff_eq_none]

/-- A segment of a key in CONFIG, served. -/
theorem State.keyWrite_serves (s : State) (r : Request) (h : Claims.asks s r 4) (hi : r.index = 0x5010 ∨ r.index = 0x5011)
    (hm : s.ctl.mode = .config) : ∃ t, exec .keyWrite s = .next t ∧ t.mem = s.mem ∧
      t.prot = s.prot.take r.index r.offset r.data r.first r.last := by
  have hs : r.service = 4 := service_of_asks h
  refine ⟨_, congrArg Host.Outcome.next (s.serveFor_segWrite r _ h (by simp [hs, hi])), ?_, ?_⟩
  · rw [s.writeSegment_key r hi hm, State.reply_ok_mem]
  · rw [s.writeSegment_key r hi hm, State.reply_ok_prot]

theorem exec_tagWrite_asks (s : State) (r : Request) (h : Claims.asks s r 4) (hi : r.index = 0x5102 ∨ r.index = 0x5103) :
    exec .tagWrite s = .next (s.reply r (s.writeSegment r)) :=
  have hs : r.service = 4 := service_of_asks h
  congrArg Host.Outcome.next (s.serveFor_segWrite r _ h (by simp [hs, hi]))
/-- A segment of a tag under an issued nonce, served. -/
theorem State.tagWrite_serves (s : State) (r : Request) (h : Claims.asks s r 4) (hi : r.index = 0x5102 ∨ r.index = 0x5103)
    (hn : s.prot.nonce ≠ none) : ∃ t, exec .tagWrite s = .next t ∧ t.mem = s.mem ∧
      t.prot = s.prot.take r.index r.offset r.data r.first r.last := by
  refine ⟨_, exec_tagWrite_asks s r h hi, ?_, ?_⟩
  · rw [s.writeSegment_tag r hi, if_neg hn, State.reply_ok_mem]
  · rw [s.writeSegment_tag r hi, if_neg hn, State.reply_ok_prot]

/-! ## PROPOSED and NONCE (R9, R400) -/

theorem State.syncConfig_mem (s : State) : s.syncConfig.mem = s.mem := by rw [State.syncConfig_eq]
theorem State.syncConfig_prot (s : State) : s.syncConfig.prot = s.prot := by rw [State.syncConfig_eq]

theorem State.writeProposed_proposedByte (s : State) (off : Nat) (bs : List Byte) (o : Nat) :
    (s.writeProposed off bs).prot.proposedByte o =
      if off ≤ o ∧ o < off + bs.length then bs.getD (o - off) 0 &&& imageMask o else s.prot.proposedByte o :=
  Tab.get_putAll_map_placed _ (fun k b => b &&& imageMask k) _ _ _ _
/-- A write of PROPOSED, served. -/
theorem State.proposedWrite_serves (s : State) (r : Request) (h : Claims.asks s r 4) (hi : r.index = 0x5100) :
    ∃ t, exec .proposedWrite s = .next t ∧ t.mem = s.mem ∧ t.prot = (s.writeProposed r.offset r.data).prot := by
  have hs : r.service = 4 := service_of_asks h
  have hw : s.writeSegment r = .ok (s.writeProposed r.offset r.data).syncConfig := by simp only [State.writeSegment, hi]
  refine ⟨_, congrArg Host.Outcome.next (s.serveFor_segWrite r _ h (by simp [hs, hi])), ?_, ?_⟩
  · rw [hw, State.reply_ok_mem, State.syncConfig_mem]; rfl
  · rw [hw, State.reply_ok_prot, State.syncConfig_prot]

theorem objRow_nonce : objRow 0x5101 0 = some ⟨0x5101, 0x5101, 0x00, 0x00, .u64, .ro, 0, false⟩ := rfl
theorem State.readRequest_nonce (s : State) (r : Request) (hi : r.index = 0x5101) (hs : r.sub = 0) :
    s.readRequest r = s.issueNonce.1.answerRequest r 0 (leBytes 8 s.issueNonce.2) := by
  unfold State.readRequest
  rw [hi, hs, objRow_nonce, if_neg fun h => absurd h.1 (by decide)]
  rfl

/-! ## PROTECT_COMMIT (R402 to R404) -/

theorem State.countRefusal_mem (s : State) : s.countRefusal.mem = s.mem := State.raiseIf_mem ..
theorem State.countRefusal_prot (s : State) : s.countRefusal.prot = { s.prot with
    refusals := satAdd 255 s.prot.refusals 1, locked := decide (8 ≤ satAdd 255 s.prot.refusals 1) } := State.raiseIf_prot ..
/-- What a refused PROTECT_COMMIT answers from: a state with memory, ACTIVE and the keys as they were. -/
theorem State.protectCommit_refused (s : State) (r : Request) (code : Nat) (ha : s.prot.applying = false)
    (hc : s.protectRefusal = some code) : ∃ u : State, s.reply r s.protectCommit = u.refuseRequest r code ∧
      u.mem = s.mem ∧ u.prot.active = s.prot.active ∧ u.prot.keyA = s.prot.keyA ∧ u.prot.keyB = s.prot.keyB := by
  unfold State.protectCommit
  rw [if_neg (by simp [ha]), hc]
  dsimp only
  split
  · case _ e => obtain rfl := Option.some.inj e; exact ⟨s, rfl, rfl, rfl, rfl, rfl⟩
  · case _ e =>
    obtain rfl := Option.some.inj e
    refine ⟨_, rfl, State.countRefusal_mem _, ?_⟩
    rw [State.countRefusal_prot]
    exact ⟨rfl, rfl, rfl⟩
  · case _ e => obtain rfl := Option.some.inj e; exact ⟨_, rfl, rfl, rfl, rfl, rfl⟩
  · case _ e => cases e

/-- The checks of PROTECT_COMMIT have passed: the nonce is used up, and the change is to be applied (R402, R404). -/
def State.protectAccepted (s : State) : State := { s with prot := { s.prot with nonce := none, applying := true } }
/-- With the checks passed and no op to wait for, the change applies at once, with the nonce used up. -/
theorem State.protectCommit_applies (s : State) (ha : s.prot.applying = false) (hc : s.protectRefusal = none)
    (hm : s.ctl.mode = .config) (hp : s.ctl.rulePoint = none) :
    s.protectCommit = .later s.protectAccepted.applyProtection none .protection := by
  unfold State.protectCommit
  rw [if_neg (by simp [ha]), hc]
  simp [State.protectAccepted, State.atPoint, State.pointReached, hm, hp, Mode.traffic]

/-- In CONFIG no journal is written. -/
theorem State.syncConfig_config (s : State) (hm : s.ctl.mode = .config) : s.syncConfig = s :=
  if_neg (by simp [State.journaled, Ctl.rulesOf, hm])
theorem State.applyProtection_prot (s : State) : s.applyProtection.prot = { s.prot with
    active := (List.range imageSize).filterMap fun o =>
      if s.prot.proposedByte o = activeDefault o then none else some (o, s.prot.proposedByte o)
    applying := false } := by
  have h : s.applyProtection.prot = _ := State.syncConfig_prot _
  rw [h]
theorem State.applyProtection_config (s : State) (hm : s.ctl.mode = .config) :
    s.applyProtection = { s with prot := s.applyProtection.prot } := by
  have h : s.applyProtection = _ := State.syncConfig_config _ hm
  rw [h]
/-- PROPOSED becomes ACTIVE. -/
theorem State.applyProtection_activeByte (s : State) (o : Nat) (ho : o < imageSize) :
    s.applyProtection.prot.activeByte o = s.prot.proposedByte o := by
  simp only [State.applyProtection_prot, Protect.activeByte]
  exact Tab.get_filterMap_ne_default activeDefault s.prot.proposedByte (List.range imageSize) o (List.mem_range.mpr ho)

/-- The response of an applied change returns, and CHANGES rises with it. -/
theorem State.returned_protection_prot (s : State) (r : Request) : (s.returned r none .protection).prot =
    { s.prot with changes := satAdd u32Max s.prot.changes 1 } := by
  unfold State.returned
  rw [State.answerRequest_prot]
  exact State.raise_prot _ _

/-! ## The obligation -/

theorem keysTagsAndNonce : Claims.KeysTagsAndNonce := by
  intro s r
  refine ⟨fun h hi hm => ?key, fun h hi => ?proposed, fun h hi hs => ?nonce, fun h hi hn => ?tagRefused,
    fun h hi hn hl hf => ?tag⟩
  case key =>
    obtain ⟨t, ht, hmem, hp⟩ := s.keyWrite_serves r h hi hm
    refine ⟨t, ht, hmem, ?_, fun hl => ?_, fun hl hf hi => ?_, fun hl hf hi => ?_⟩
    · rw [hp, Protect.take_active]
    · rw [hp, hl]; exact Protect.take_unfinished_keys ..
    · rw [hp, hl, hf, hi, Protect.take_keyA]; exact ⟨rfl, rfl⟩
    · rw [hp, hl, hf, hi, Protect.take_keyB]; exact ⟨rfl, rfl⟩
  case proposed =>
    obtain ⟨t, ht, hmem, hp⟩ := s.proposedWrite_serves r h hi
    refine ⟨t, ht, hmem, ?_⟩
    rw [hp]
    exact ⟨rfl, rfl, rfl, rfl, State.writeProposed_proposedByte s r.offset r.data⟩
  case nonce =>
    have hv : r.service = 1 := service_of_asks h
    have ha := Answered.answerRequest s.issueNonce.1 r 0 (leBytes 8 s.issueNonce.2)
    refine ⟨_, congrArg Host.Outcome.next ((s.serveFor_read r _ h (by simp [hv, hi])).trans (s.readRequest_nonce r hi hs)), ?_⟩
    rw [ha.eq]
    exact ⟨rfl, rfl, rfl, rfl, rfl⟩
  case tagRefused =>
    rw [exec_tagWrite_asks s r h hi, s.writeSegment_tag r hi, if_pos hn]; rfl
  case tag =>
    obtain ⟨t, ht, hmem, hp⟩ := s.tagWrite_serves r h hi hn
    refine ⟨t, ht, hmem, fun hi => ?_, fun hi => ?_⟩
    · rw [hp, hl, hf, hi, Protect.take_tagA]; exact ⟨rfl, rfl⟩
    · rw [hp, hl, hf, hi, Protect.take_tagB]; exact ⟨rfl, rfl⟩

theorem protectCommitChecksThenApplies : Claims.ProtectCommitChecksThenApplies := by
  intro s r h ha
  have ⟨_, _, hj, hs, hi, _⟩ := h
  have he : exec .protectCommit s = .next (s.reply r s.protectCommit) :=
    congrArg Host.Outcome.next (s.serveFor_write r _ _ _ _ h (by simp [Request.writesTo, hs, hi]))
  refine ⟨fun code hc => ?refused, fun hc hm hp => ?applied⟩
  case refused =>
    obtain ⟨u, hu, hmem, hact, hA, hB⟩ := s.protectCommit_refused r code ha hc
    refine ⟨_, he, ?_⟩
    rw [hu, State.refuseRequest_mem, State.refuseRequest_prot, State.refuseRequest_lastAbort]
    exact ⟨hmem, hact, rfl, hA, hB⟩
  case applied =>
    have hcfg := State.applyProtection_config s.protectAccepted hm
    have hr : s.reply r s.protectCommit = s.protectAccepted.applyProtection.returned r none .protection := by
      rw [s.protectCommit_applies ha hc hm hp]
      apply State.reply_later_returned
      · rw [hcfg]; rfl
      · rw [hcfg]; exact hj
    refine ⟨_, he, ?_⟩
    rw [hr, State.returned_protection_prot]
    refine ⟨?_, ?_, fun o ho => State.applyProtection_activeByte s.protectAccepted o ho⟩
    · rw [State.applyProtection_prot]; rfl
    · rw [State.applyProtection_prot]; rfl

/-- Settles O42: what the unit holds follows from the segment that is served; of PROTECT_COMMIT either the first failing check
answers, or in CONFIG the act runs and its response returns in the same step. -/
theorem protectionTakesKeysAndCommits : Obligations.ProtectionTakesKeysAndCommits :=
  ⟨keysTagsAndNonce, protectCommitChecksThenApplies⟩

end Sys2Proof.Machine
end

section
/-! PROOFS. The values that FILL, TALLY and PART compute (R136, R199, R212). -/
namespace Sys2Proof

/-- A CRC is a number of 32 bits, whatever seed and bytes it is of. -/
theorem crcFrom_lt (seed : Nat) (bs : List Byte) : crcFrom seed bs < 2 ^ 32 := BitVec.isLt _

end Sys2Proof

namespace Sys2Proof.Machine

/-! ## FILL (R136) -/

theorem fillBytes_getElem? (bytes : List Byte) (lo : Nat) {n i : Nat} (h : i < n) :
    (fillBytes bytes lo n)[i]? = some (bytes.getD ((lo + i) % bytes.length) 0) := by
  rw [fillBytes, List.getElem?_map, List.getElem?_range h, Option.map_some]

/-! ## TALLY (R212) -/

/-- MIN after a row is a lower bound of the value and of MIN before it, and one of the two. -/
theorem TallyDesc.add_min (t : TallyDesc) (a : Acc) (row : List Byte) :
    let v := widened t.signed t.valWidth (fieldAt row t.valOff t.valWidth)
    ∃ m, (t.add a row).min = some m ∧ m ≤ v ∧ (∀ k, a.min = some k → m ≤ k) ∧ (m = v ∨ a.min = some m) := by
  intro v
  refine ⟨_, rfl, ?_⟩
  cases hm : a.min with
  | none => exact ⟨Int.le_refl v, nofun, .inl rfl⟩
  | some k =>
    simp only [Option.some.injEq, forall_eq']
    split <;> omega

/-- MAX after a row is an upper bound of the value and of MAX before it, and one of the two. -/
theorem TallyDesc.add_max (t : TallyDesc) (a : Acc) (row : List Byte) :
    let v := widened t.signed t.valWidth (fieldAt row t.valOff t.valWidth)
    ∃ m, (t.add a row).max = some m ∧ v ≤ m ∧ (∀ k, a.max = some k → k ≤ m) ∧ (m = v ∨ a.max = some m) := by
  intro v
  refine ⟨_, rfl, ?_⟩
  cases hm : a.max with
  | none => exact ⟨Int.le_refl v, nofun, .inl rfl⟩
  | some k =>
    simp only [Option.some.injEq, forall_eq']
    split <;> omega

/-! ## PART (R199) -/

/-- The top K bits of a number of 32 bits are one of 2^K values. -/
theorem PartDesc.dest_lt (d : PartDesc) (row : List Byte) (h : d.k ≤ 32) : d.dest row < 2 ^ d.k := by
  refine Nat.div_lt_of_lt_mul ?_
  rw [← Nat.pow_add, Nat.sub_add_cancel h]
  exact crcFrom_lt _ _

/-- A row's destination rests on its key alone. -/
theorem PartDesc.dest_congr (d : PartDesc) {x y : List Byte}
    (h : (x.drop d.keyOff).take d.keyLen = (y.drop d.keyOff).take d.keyLen) : d.dest x = d.dest y := by
  rw [PartDesc.dest, PartDesc.dest, h]

/-! ## The obligation -/

theorem fillRepeatsItsPattern : Claims.FillRepeatsItsPattern :=
  fun bytes lo _ _ h => fillBytes_getElem? bytes lo h

theorem tallyAddsARowToItsGroup : Claims.TallyAddsARowToItsGroup :=
  fun t a row => ⟨rfl, rfl, t.add_min a row, t.add_max a row⟩

theorem partSendsEqualKeysTogether : Claims.PartSendsEqualKeysTogether :=
  fun d x _ h => ⟨d.dest_lt x (by omega), d.dest_congr⟩

/-- Settles O12: a byte of FILL is read off its list, MIN and MAX follow from the comparison with the value before, and a
destination is the top K bits of a CRC of the key. -/
theorem dataValuesFollowTheirRules : Obligations.DataValuesFollowTheirRules :=
  ⟨fillRepeatsItsPattern, tallyAddsARowToItsGroup, partSendsEqualKeysTogether⟩

end Sys2Proof.Machine
end

section
/-! PROOFS. The issue of a segment (R131, R220, R222): what BURST_ISSUE leaves in the channel's item and its NEXT. -/
namespace Sys2Proof.Machine

variable (s : State)

/-! ## An update of an item in its context -/

@[simp] theorem Ctx.modItem_head (x : Ctx) (f : Item → Item) : (x.modItem f).items.head? = x.items.head?.map f := by
  unfold Ctx.modItem
  cases h : x.items with
  | nil => simp [h]
  | cons it r => rfl
@[simp] theorem Ctx.modItem_f (x : Ctx) (f : Item → Item) : (x.modItem f).f = x.f := by
  unfold Ctx.modItem
  split <;> rfl
@[simp] theorem Ctx.modItem_next256 (x : Ctx) (f : Item → Item) : (x.modItem f).next256 = x.next256 := by
  unfold Ctx.modItem
  split <;> rfl
@[simp] theorem State.ctx_modItem_self (c : Nat) (f : Item → Item) : (s.modItem c f).ctx c = (s.ctx c).modItem f :=
  s.ctx_modCtx_self c _
theorem State.item_modItem_self (c : Nat) (f : Item → Item) : (s.modItem c f).item c = (s.item c).map f := by
  simp [State.item]

/-! ## Channels below the legacy slots -/

section
variable {s} {c : Nat} (hc : c < legacyBase)
include hc

theorem State.modRun_of_channel (f : OpRun → OpRun) : s.modRun c f = s.modItem c fun it => { it with run := it.run.map f } :=
  if_neg (Nat.not_le.mpr hc)
theorem State.run_of_channel {it : Item} (hi : s.item c = some it) : s.run c = it.run := by
  simp only [State.run, if_neg (Nat.not_le.mpr hc), hi]
theorem State.setOf_of_channel : s.setOf c = (s.ctx c).f.windowSet := if_neg (Nat.not_le.mpr hc)
theorem State.leading_of_channel : s.leading c = ((s.ctx c).next256, (s.ctx c).f.share) := if_neg (Nat.not_le.mpr hc)

/-- Port leading writes NEXT alone, and that of the channel charged (R222). -/
theorem State.ctx_charge_self (t b : Nat) : (s.charge t c b).ctx c = { s.ctx c with
    next256 := if (s.ctx c).f.share = 0 then (s.ctx c).next256
      else max (s.ctx c).next256 (t * 256) + b * 65536 / (s.ctx c).f.share } := by
  simp only [State.charge, State.leading_of_channel hc, if_neg (Nat.not_le.mpr hc), Nat.mul_assoc, Nat.reduceMul]
  split
  · rfl
  · exact s.ctx_modCtx_self c _

end
theorem State.charge_mem (t c b : Nat) : (s.charge t c b).mem = s.mem := by
  unfold State.charge
  dsimp only
  split
  · rfl
  · split <;> rfl

/-! ## Reads presented leave the contexts as they are -/

theorem State.foldl_ctxs {α : Type} {f : State → α → State} (hf : ∀ u a, (f u a).ctxs = u.ctxs) (l : List α) (s : State) :
    (l.foldl f s).ctxs = s.ctxs := by
  induction l generalizing s with
  | nil => rfl
  | cons a l ih => exact (ih _).trans (hf s a)
@[simp] theorem State.request_ctxs (o : Owner) (f : Frame) (a n d x : Nat) : (s.request o f a n d x).ctxs = s.ctxs :=
  State.sendFrame_ctxs ..
@[simp] theorem State.presentReads_ctxs (k : Carrier) (n : Nat) (d : Side) (lo m : Nat) :
    (s.presentReads k n d lo m).ctxs = s.ctxs := by
  refine State.foldl_ctxs (fun u p => ?_) _ s
  split
  · exact State.foldl_ctxs (fun v _ => v.present_ctxs ..) _ u
  · exact State.foldl_ctxs (fun v _ => State.foldl_ctxs (fun w _ => w.request_ctxs ..) _ v) _ u
  · rfl
@[simp] theorem State.issueReads_ctxs (k : Carrier) (op : Op) (lo hi : Nat) : (s.issueReads k op lo hi).ctxs = s.ctxs := by
  have h : (op.reads.foldl (fun t r => t.presentReads k r.1 r.2 lo (hi - lo)) s).ctxs = s.ctxs :=
    State.foldl_ctxs (fun u _ => u.presentReads_ctxs ..) _ s
  unfold State.issueReads
  dsimp only
  split
  · exact (State.presentReads_ctxs ..).trans h
  · exact h
@[simp] theorem State.wakeStash_ctxs (n : Nat) : (s.wakeStash n).ctxs = s.ctxs := by
  unfold State.wakeStash
  dsimp only
  split <;> rfl
@[simp] theorem State.wakeFor_ctxs (op : Op) (lo hi : Nat) : (s.wakeFor op lo hi).ctxs = s.ctxs := by
  unfold State.wakeFor
  split
  · refine State.foldl_ctxs (fun u p => ?_) _ s
    split
    · exact u.wakeStash_ctxs _
    · rfl
  · rfl
theorem Quiet.wakeFor {s t : State} (h : Quiet s t) (op : Op) (lo hi : Nat) : Quiet s (t.wakeFor op lo hi) := by
  unfold State.wakeFor
  split
  · refine Quiet.foldl (fun u p hu => ?_) _ h
    split
    · exact hu.wakeStash _
    · exact hu
  · exact h

/-! ## A segment placed on its lane -/

/-- The run with a segment that is cut for the first time behind the others (R131). -/
def OpRun.place (r : OpRun) (g : Segment) : OpRun :=
  if r.segs.any fun x => x.lo = g.lo then r else { r with segs := r.segs ++ [g], cut := g.hi }
/-- The run whose segment g, of an op, a lane has taken (R220). -/
def OpRun.onto (r : OpRun) (op : Op) (g : Segment) (lane : Nat) : OpRun :=
  { (r.modSeg g.lo fun x => { x with
        lane := lane, state := if op.reads.isEmpty then .read else .reading, wrote := 0, stop := none }).forget g.lo g.hi with
    lanes := if r.lanes.contains lane then r.lanes else r.lanes ++ [lane] }
/-- The state in which the segment's reads are presented. -/
def State.placeSegment (c : Nat) (r : OpRun) (g : Segment) (lane : Nat) : State :=
  ((s.modRun c fun q => q.place g).modRun c fun q => q.onto r.op g lane).modItem c fun it => { it with opSerial := some r.serial }

/-- The first segment of a run stands alone on its lane, and the stream is cut behind it. -/
theorem OpRun.onto_place_first (r : OpRun) (op : Op) (g : Segment) (lane : Nat) (h : r.segs = []) :
    ((r.place g).onto op g lane).cut = g.hi ∧
      ((r.place g).onto op g lane).segs.map (fun x => (x.lo, x.hi, x.lane)) = [(g.lo, g.hi, lane)] := by
  simp [OpRun.place, OpRun.onto, OpRun.modSeg, OpRun.forget, h]

section
variable {s} {c : Nat} (hc : c < legacyBase)
include hc

/-- What stands in a segment's way rests on no context but for the channel's own fields, and not on SCHED. -/
theorem State.segObstacle_congr {t : State} (h : t = { s with ctxs := t.ctxs, sched := t.sched })
    (hf : (t.ctx c).f = (s.ctx c).f) (op : Op) (lo hi : Nat) :
    t.segObstacle (t.setOf c) op lo hi = s.segObstacle (s.setOf c) op lo hi := by
  rw [State.setOf_of_channel hc, State.setOf_of_channel hc, hf, h]
  rfl
theorem State.segObstacle_modRun (f : OpRun → OpRun) (op : Op) (lo hi : Nat) :
    (s.modRun c f).segObstacle ((s.modRun c f).setOf c) op lo hi = s.segObstacle (s.setOf c) op lo hi := by
  rw [State.modRun_of_channel hc]
  exact State.segObstacle_congr hc rfl (by rw [State.ctx_modItem_self, Ctx.modItem_f]) op lo hi

/-- With nothing in its way a segment is placed, its reads are presented, which leaves memory and the context, and port leading is
charged. -/
theorem State.issueSegment_charges (t lane : Nat) (r : OpRun) (g : Segment)
    (ho : s.segObstacle (s.setOf c) r.op g.lo g.hi = none) :
    ∃ u : State, s.issueSegment t c r g lane = u.charge t c (segBeats r.op g.lo g.hi) ∧ u.mem = s.mem ∧
      u.ctx c = (s.placeSegment c r g lane).ctx c := by
  rw [← State.segObstacle_modRun hc fun q => q.place g] at ho
  refine ⟨((s.placeSegment c r g lane).wakeFor r.op g.lo g.hi).issueReads
    ((s.placeSegment c r g lane).carrier c r { g with lane := lane } false) r.op g.lo g.hi, ?_, ?_, ?_⟩
  · unfold State.issueSegment
    dsimp only [OpRun.place] at ho ⊢
    rw [ho]
    simp only [if_neg (Nat.not_le.mpr hc)]
    rfl
  · have hq : Quiet s (s.placeSegment c r g lane) := (((Quiet.refl s).modRun _ _).modRun _ _).modItem _ _
    exact ((hq.wakeFor _ _ _).issueReads _ _ _ _).mem
  · exact State.ctx_congr ((State.issueReads_ctxs ..).trans (State.wakeFor_ctxs ..)) c

theorem State.item_placeSegment {it : Item} (r : OpRun) (g : Segment) (lane : Nat) (hi : s.item c = some it)
    (hr : it.run = some r) : (s.placeSegment c r g lane).item c =
      some { it with run := some ((r.place g).onto r.op g lane), opSerial := some r.serial } := by
  simp only [State.placeSegment, State.modRun_of_channel hc, State.item_modItem_self, hi, hr, Option.map_some]
theorem State.ctx_placeSegment (r : OpRun) (g : Segment) (lane : Nat) :
    ((s.placeSegment c r g lane).ctx c).f = (s.ctx c).f ∧
      ((s.placeSegment c r g lane).ctx c).next256 = (s.ctx c).next256 := by
  simp [State.placeSegment, State.modRun_of_channel hc]

/-- A segment issued with nothing in its way: memory, the channel's item and its NEXT. -/
theorem State.issueSegment_leaves {it : Item} (t lane : Nat) (r : OpRun) (g : Segment) (hi : s.item c = some it)
    (hr : it.run = some r) (ho : s.segObstacle (s.setOf c) r.op g.lo g.hi = none) :
    (s.issueSegment t c r g lane).mem = s.mem ∧
      (s.issueSegment t c r g lane).item c =
        some { it with run := some ((r.place g).onto r.op g lane), opSerial := some r.serial } ∧
      ((s.issueSegment t c r g lane).ctx c).next256 = if (s.ctx c).f.share = 0 then (s.ctx c).next256 else
        max (s.ctx c).next256 (t * 256) + segBeats r.op g.lo g.hi * 65536 / (s.ctx c).f.share := by
  obtain ⟨u, he, hm, hu⟩ := State.issueSegment_charges hc t lane r g ho
  obtain ⟨hf, hn⟩ := State.ctx_placeSegment (s := s) hc r g lane
  rw [he, State.item, State.ctx_charge_self hc, hu, hf, hn]
  exact ⟨(u.charge_mem ..).trans hm, State.item_placeSegment hc r g lane hi hr, rfl⟩

end

/-! ## The obligation -/

/-- BURST_ISSUE hands the segment to the lane, in the state where the rotation of the channel's class has moved on (R220). -/
theorem exec_burstIssue_segment {s : State} {cycle c lane : Nat} {r : OpRun} {g : Segment} (hp : s.pickChannel cycle = some c)
    (hb : s.nextBurst c = some (.segment r g)) (hl : s.pickLane r.op.locked r.lanesHeld = some lane) :
    ∃ u : State, exec (.burstIssue cycle) s = .next (u.issueSegment cycle c r g lane) ∧
      u = { s with ctxs := u.ctxs, sched := u.sched } ∧ u.ctxs = s.ctxs := by
  refine ⟨{ s with sched := { s.sched with rotation := Tab.insert (s.classOf c) (c + 1) s.sched.rotation } }, ?_, rfl, rfl⟩
  change Host.Outcome.next (s.burstIssue cycle) = _
  simp only [State.burstIssue, hp, hb, NextBurst.locked, NextBurst.taken, hl, State.issue]

/-- Settles O10: neither the segment's check nor the channel's context rests on SCHED's rotation, and reads presented leave the
contexts, so what the issue writes into the item and NEXT stands. -/
theorem burstIssueTakesTheNextSegment : Obligations.BurstIssueTakesTheNextSegment := by
  intro cycle c lane s it r g (hc : c < legacyBase) hp hb hl hi hr hs ho
  obtain ⟨u, he, hu, hctxs⟩ := exec_burstIssue_segment hp hb hl
  have hx : u.ctx c = s.ctx c := State.ctx_congr hctxs c
  have hui : u.item c = some it := by rw [State.item, hx]; exact hi
  have huo : u.segObstacle (u.setOf c) r.op g.lo g.hi = none := (State.segObstacle_congr hc hu (by rw [hx]) ..).trans ho
  obtain ⟨hm, hitem, hnext⟩ := State.issueSegment_leaves hc cycle lane r g hui hr huo
  obtain ⟨hcut, hsegs⟩ := r.onto_place_first r.op g lane hs
  refine ⟨_, he, by rw [hm, hu], ?_, ?_, hx ▸ hnext⟩
  · rw [hitem, Option.map_some]
  · rw [State.run_of_channel hc hitem, Option.map_some, hcut, hsegs]

end Sys2Proof.Machine
end

section
/-! PROOFS. What POOL's work leaves as it is: JRN's records, the galleys that a job does not name, and the work that waits (R155, R187,
R191). -/
namespace Sys2Proof.Machine

variable (s : State)

/-! ## JRN's records -/

theorem State.foldl_jrn {α : Type} {f : State → α → State} (hf : ∀ u a, (f u a).jrn = u.jrn) (l : List α) (s : State) :
    (l.foldl f s).jrn = s.jrn := by
  induction l generalizing s with
  | nil => rfl
  | cons a l ih => exact (ih _).trans (hf s a)
theorem State.ite_jrn {p : Prop} [Decidable p] {t u : State} (ht : t.jrn = s.jrn) (hu : u.jrn = s.jrn) :
    (if p then t else u).jrn = s.jrn := by
  split
  · exact ht
  · exact hu

@[simp] theorem State.request_jrn (o : Owner) (f : Frame) (a n d x : Nat) : (s.request o f a n d x).jrn = s.jrn :=
  State.sendFrame_jrn ..
@[simp] theorem State.modRun_jrn (c : Nat) (f : OpRun → OpRun) : (s.modRun c f).jrn = s.jrn := s.ite_jrn rfl rfl
@[simp] theorem State.failOp_jrn (c : Nat) (f : FaultRec) : (s.failOp c f).jrn = s.jrn := s.ite_jrn rfl rfl
@[simp] theorem State.sendSeal_jrn (c : Nat) (r : OpRun) (d n : Nat) : (s.sendSeal c r d n).jrn = s.jrn :=
  s.ite_jrn rfl (s.request_jrn ..)
@[simp] theorem State.sendSeals_jrn (c : Nat) (r : OpRun) (ds : List Nat) : (s.sendSeals c r ds).jrn = s.jrn :=
  State.foldl_jrn (fun u _ => u.sendSeal_jrn ..) _ s
@[simp] theorem State.resendSeals_jrn (c : Nat) : (s.resendSeals c).jrn = s.jrn := by
  unfold State.resendSeals
  split
  · exact s.ite_jrn (s.sendSeals_jrn ..) rfl
  · rfl
@[simp] theorem State.reissueIf_jrn (c g : Nat) (p : Nat → Bool) (ok : WaitOn → Bool) : (s.reissueIf c g p ok).jrn = s.jrn := by
  unfold State.reissueIf
  dsimp only
  split
  · exact s.ite_jrn rfl rfl
  · refine s.ite_jrn ?_ rfl
    rw [State.resendSeals_jrn, State.modRun_jrn]
    exact s.ite_jrn rfl rfl
@[simp] theorem State.giveRoom_jrn (g : Nat) : (s.giveRoom g).jrn = s.jrn :=
  (State.foldl_jrn (fun u _ => u.request_jrn ..) _ _).trans (State.foldl_jrn (fun u _ => u.reissueIf_jrn ..) _ s)
@[simp] theorem State.wakePops_jrn (g : Nat) : (s.wakePops g).jrn = s.jrn := by
  refine State.foldl_jrn (fun u e => ?_) _ s
  exact u.ite_jrn rfl rfl
@[simp] theorem State.poolHalt_jrn (c : Nat) (r : OpRun) (o d : Nat) (a : PoolAnswer) : (s.poolHalt c r o d a).jrn = s.jrn := by
  unfold State.poolHalt
  split
  · exact (State.failOp_jrn ..).trans (s.modRun_jrn ..)
  · exact s.failOp_jrn ..
  · exact s.failOp_jrn ..
  · rfl
@[simp] theorem State.sealAnswered_jrn (c n d : Nat) (a : PoolAnswer) : (s.sealAnswered c n d a).jrn = s.jrn := by
  unfold State.sealAnswered
  split
  · rfl
  · refine s.ite_jrn rfl ?_
    split
    · exact s.ite_jrn rfl rfl
    · split
      · exact (State.sendSeals_jrn ..).trans (s.modRun_jrn ..)
      · exact s.poolHalt_jrn ..
@[simp] theorem State.remember_jrn (n g : Nat) (a : PoolAnswer) : (s.remember n g a).jrn = s.jrn := by
  unfold State.remember
  split <;> rfl
@[simp] theorem State.answerSeal_jrn (p : Piece) (a : PoolAnswer) : (s.answerSeal p a).jrn = s.jrn := by
  unfold State.answerSeal
  split
  · exact (State.remember_jrn ..).trans (s.sendFrame_jrn _)
  · exact s.sealAnswered_jrn ..

@[simp] theorem State.freeAll_jrn (ks : List Nat) : (s.freeAll ks).jrn = s.jrn :=
  (State.poolLow_jrn _).trans (State.foldl_jrn (fun u _ => u.freeCell_jrn _) _ s)
@[simp] theorem State.syncPointers_jrn (g : Nat) : (s.syncPointers g).jrn = s.jrn := rfl
@[simp] theorem State.discardUnit_jrn (g : Nat) (u : OpenUnit) : (s.discardUnit g u).jrn = s.jrn := State.freeAll_jrn ..
@[simp] theorem State.noteUnit_jrn (p : Piece) (x : MarkState) (b : Bool) : (s.noteUnit p x b).jrn = s.jrn := by
  unfold State.noteUnit
  split
  · exact State.poolJobs_jrn ..
  · rfl
@[simp] theorem State.flushUnits_jrn (g : Nat) : (s.flushUnits g).jrn = s.jrn :=
  State.foldl_jrn (fun u _ => (State.noteUnit_jrn ..).trans (u.discardUnit_jrn ..)) _ s
@[simp] theorem State.reclaimCells_jrn (g : Nat) : (s.reclaimCells g).jrn = s.jrn := by
  unfold State.reclaimCells
  exact s.ite_jrn rfl (by simp)
@[simp] theorem State.settleChain_jrn (g : Nat) : (s.settleChain g).jrn = s.jrn :=
  s.ite_jrn (by simp) (s.reclaimCells_jrn g)
@[simp] theorem State.flushGalley_jrn (g : Nat) : (s.flushGalley g).jrn = s.jrn := by simp [State.flushGalley]
@[simp] theorem State.endDelete_jrn (g : Nat) : (s.endDelete g).jrn = s.jrn := s.ite_jrn (by simp) rfl
@[simp] theorem State.releaseEntries_jrn (g : Nat) (f : Entry → Bool) : (s.releaseEntries g f).jrn = s.jrn := by
  unfold State.releaseEntries
  refine s.ite_jrn rfl ?_
  simp [State.foldl_jrn fun (u : State) (e : Entry) => u.clearMark_jrn e.markSlot]
@[simp] theorem State.popLost_jrn (c n : Nat) : (s.popLost c n).jrn = s.jrn := rfl
@[simp] theorem State.dropIdle_jrn (g : Nat) (b : Bool) : (s.dropIdle g b).jrn = s.jrn := by
  refine (State.foldl_jrn (fun u j => ?_) _ _).trans (s.dropJobs_jrn _)
  split
  · exact u.ite_jrn rfl rfl
  · rfl
@[simp] theorem State.loseGalley_jrn (g : Nat) : (s.loseGalley g).jrn = s.jrn := by
  simp [State.loseGalley, State.foldl_jrn fun (u : State) (e : Entry) => u.clearMark_jrn e.markSlot]
@[simp] theorem State.cancelSeal_jrn (g : Nat) : (s.cancelSeal g).jrn = s.jrn := by
  unfold State.cancelSeal
  dsimp only
  split
  · rfl
  · simp
@[simp] theorem State.countMismatch_jrn (g : Nat) : (s.countMismatch g).jrn = s.jrn := s.ite_jrn rfl (by simp)
@[simp] theorem State.pointerMismatch_jrn (g : Nat) : (s.pointerMismatch g).jrn = s.jrn :=
  s.ite_jrn (by simp) (s.ite_jrn (by simp) (by simp))
@[simp] theorem State.sealMark_jrn (p : Piece) : (s.sealMark p).jrn = s.jrn :=
  State.foldl_jrn (fun u _ => u.clearMark_jrn _) _ s
@[simp] theorem State.finishSeal_jrn (g : Nat) (x : Sealing) : (s.finishSeal g x).jrn = s.jrn := by
  unfold State.finishSeal
  simp only [State.poolRefill_jrn, State.wakePops_jrn, State.answerSeal_jrn]
  exact s.ite_jrn (by simp) (by simp)
@[simp] theorem State.refillFrom_jrn (g k : Nat) : (s.refillFrom g k).jrn = s.jrn :=
  s.ite_jrn rfl (s.ite_jrn (by simp) (by simp))
@[simp] theorem State.payloadRead_jrn (c n g : Nat) (l : List Nat) (o m : Nat) (b : Bool) :
    (s.payloadRead c n g l o m b).jrn = s.jrn := s.ite_jrn (by simp) rfl
@[simp] theorem State.descWritten_jrn (g : Nat) : (s.descWritten g).jrn = s.jrn := s.ite_jrn rfl rfl
@[simp] theorem State.endRebuild_jrn (g : Nat) (b : Bool) : (s.endRebuild g b).jrn = s.jrn := by simp [State.endRebuild]
@[simp] theorem State.rebuildFrom_jrn (g : Nat) : (s.rebuildFrom g).jrn = s.jrn := s.ite_jrn (by simp) rfl
@[simp] theorem State.walkFrom_jrn (g k n : Nat) : (s.walkFrom g k n).jrn = s.jrn := s.ite_jrn (by simp) (s.ite_jrn rfl rfl)
@[simp] theorem State.jobDone_jrn (j : PoolJob) : (s.jobDone j).jrn = s.jrn := by
  cases j with
  | rewrite g k next add plen =>
    refine s.ite_jrn (by simp) ?_
    rw [State.poolFirst_jrn]
    exact s.ite_jrn rfl rfl
  | sealBegin g => exact s.ite_jrn rfl (by simp)
  | sealEnd g =>
    unfold State.jobDone
    dsimp only
    split
    · simp
    · rfl
  | rebuild g => exact s.ite_jrn (by simp) rfl
  | walk g k n => exact s.ite_jrn (by simp) rfl
  | rebuilt g => exact s.ite_jrn (by simp) rfl
  | write a bs => rfl
  | answer => rfl
  | desc g w => exact s.descWritten_jrn g
  | refill g k => exact s.refillFrom_jrn g k
  | payload c n g l o m b => exact s.payloadRead_jrn c n g l o m b
  | marks g => exact s.releaseEntries_jrn g _
@[simp] theorem State.poolFinish_jrn : s.poolFinish.jrn = s.jrn := by
  unfold State.poolFinish
  split
  · rfl
  · exact State.jobDone_jrn ..
@[simp] theorem State.poolNext_jrn (n : Nat) : (s.poolNext n).jrn = s.jrn := by
  induction n generalizing s with
  | zero => rfl
  | succ n ih =>
    have h1 : ((if s.pool.busy then s.poolFinish else s).poolStart).jrn = s.jrn :=
      (State.poolStart_jrn _).trans (s.ite_jrn s.poolFinish_jrn rfl)
    exact s.ite_jrn rfl (s.ite_jrn h1 ((ih _).trans ((State.poolFinish_jrn _).trans h1)))
/-- POOL issues no record and gives none up. -/
@[simp] theorem State.poolRun_jrn : s.poolRun.jrn = s.jrn := s.poolNext_jrn _

/-! ## The galleys -/

theorem State.foldl_galley {α : Type} {f : State → α → State} (g : Nat) (hf : ∀ u a, (f u a).galley g = u.galley g) (l : List α)
    (s : State) : (l.foldl f s).galley g = s.galley g := by
  induction l generalizing s with
  | nil => rfl
  | cons a l ih => exact (ih _).trans (hf s a)

/-- POOL begins its first job: of what it holds itself only that it is busy changes. -/
theorem State.poolStart_pool : s.poolStart.pool = { s.pool with busy := s.poolStart.pool.busy } := by
  unfold State.poolStart
  split
  · rfl
  · dsimp only
    split
    · rfl
    · rw [State.poolAccess_pool]
theorem State.poolJobs_pool (l : List PoolJob) : (s.poolJobs l).pool =
    { s.pool with jobs := s.pool.jobs ++ l, busy := (s.poolJobs l).pool.busy } :=
  State.poolStart_pool _
@[simp] theorem State.poolJobs_jobs (l : List PoolJob) : (s.poolJobs l).pool.jobs = s.pool.jobs ++ l := by
  rw [State.poolJobs_pool]
@[simp] theorem State.poolLow_jobs : s.poolLow.pool.jobs = s.pool.jobs := by
  simp only [State.poolLow, State.raiseIf_pool]

@[simp] theorem State.poolJobs_galley (l : List PoolJob) (g : Nat) : (s.poolJobs l).galley g = s.galley g := by
  unfold State.galley
  rw [State.poolJobs_pool]
@[simp] theorem State.poolLow_galley (g : Nat) : s.poolLow.galley g = s.galley g := by
  simp only [State.galley, State.poolLow, State.raiseIf_pool]
@[simp] theorem State.writeDesc_galley (h g : Nat) : (s.writeDesc h).galley g = s.galley g := s.poolJobs_galley _ g
@[simp] theorem State.clearMark_galley (n g : Nat) : (s.clearMark n).galley g = s.galley g := by
  unfold State.clearMark
  split
  · rfl
  · exact s.poolJobs_galley _ g
@[simp] theorem State.freeCell_galley (k g : Nat) : (s.freeCell k).galley g = s.galley g := s.poolJobs_galley _ g
@[simp] theorem State.freeAll_galley (ks : List Nat) (g : Nat) : (s.freeAll ks).galley g = s.galley g :=
  (State.poolLow_galley _ g).trans (State.foldl_galley g (fun u _ => u.freeCell_galley _ g) _ s)
@[simp] theorem State.noteUnit_galley (p : Piece) (x : MarkState) (b : Bool) (g : Nat) : (s.noteUnit p x b).galley g = s.galley g := by
  unfold State.noteUnit
  split
  · exact State.poolJobs_galley ..
  · rfl
@[simp] theorem State.freeMarks_galley (f : PushMark → Bool) (g : Nat) : (s.freeMarks f).galley g = s.galley g := by
  refine State.foldl_galley g (fun u m => ?_) _ s
  split
  · exact u.clearMark_galley _ g
  · rfl

/-! ## FLUSH and DELETE of a galley (R166, R187) -/

/-- z is the galley y but for its chain: its cells, the length of its tail, and the copies of its head and tail. -/
def Galley.sameBut (y z : Galley) : Prop :=
  z = { y with cells := z.cells, tailLen := z.tailLen, headA := z.headA, headB := z.headB, tailA := z.tailA, tailB := z.tailB }

theorem Galley.sameBut.trans {x y z : Galley} (h : x.sameBut y) (k : y.sameBut z) : x.sameBut z := by
  unfold Galley.sameBut at *
  rw [k, h]
theorem Galley.sameBut.ite {y : Galley} {p : Prop} [Decidable p] {t u : State} {g : Nat} (h : y.sameBut (t.galley g))
    (k : y.sameBut (u.galley g)) : y.sameBut ((if p then t else u).galley g) := by
  split
  · exact h
  · exact k
theorem State.syncPointers_sameBut (g : Nat) : (s.galley g).sameBut ((s.syncPointers g).galley g) := by
  unfold State.syncPointers
  rw [State.galley_setGalley_self]
  rfl
theorem State.reclaimCells_sameBut (g : Nat) : (s.galley g).sameBut ((s.reclaimCells g).galley g) := by
  refine Galley.sameBut.ite rfl ?_
  rw [State.freeAll_galley, State.writeDesc_galley]
  refine .trans ?_ (State.syncPointers_sameBut _ g)
  rw [State.poolJobs_galley, State.galley_setGalley_self]
  rfl
theorem State.settleChain_sameBut (g : Nat) : (s.galley g).sameBut ((s.settleChain g).galley g) := by
  refine Galley.sameBut.ite ?_ (s.reclaimCells_sameBut g)
  rw [State.writeDesc_galley]
  exact s.reclaimCells_sameBut g

theorem State.discardUnit_galley (g : Nat) (u : OpenUnit) :
    (s.discardUnit g u).galley g = { s.galley g with units := (s.galley g).units.filter (· ≠ u) } := by
  simp [State.discardUnit]
/-- Every open unit of the galley goes. -/
theorem State.flushUnits_galley (g : Nat) : (s.flushUnits g).galley g = { s.galley g with units := [] } := by
  have h : ∀ (l : List OpenUnit) (t : State),
      (l.foldl (fun t u => (t.discardUnit g u).noteUnit (u.piece g) .flushed (u.stored.contains 0)) t).galley g =
        { t.galley g with units := (t.galley g).units.filter fun v => !l.contains v } := by
    intro l
    induction l with
    | nil =>
      intro t
      have hf : (t.galley g).units.filter (fun v => !([] : List OpenUnit).contains v) = (t.galley g).units :=
        List.filter_eq_self.mpr fun _ _ => rfl
      rw [hf]
      rfl
    | cons u l ih =>
      intro t
      have hf : ((t.galley g).units.filter (· ≠ u)).filter (fun v => !l.contains v) =
          (t.galley g).units.filter fun v => !(u :: l).contains v := by
        rw [List.filter_filter]
        exact List.filter_congr fun v _ => by by_cases e : v = u <;> simp [e]
      rw [List.foldl_cons, ih, State.noteUnit_galley, State.discardUnit_galley, ← hf]
  refine (h _ s).trans ?_
  rw [List.filter_eq_nil_iff.mpr]
  simp

/-- The galley after a FLUSH. -/
theorem State.flushGalley_galley (g : Nat) :
    let y := s.galley g
    ({ y with entries := y.held, heads := [], units := [], flushes := satAdd u32Max y.flushes 1 } : Galley).sameBut
      ((s.flushGalley g).galley g) := by
  unfold State.flushGalley
  refine .trans ?_ (State.syncPointers_sameBut _ g)
  refine .trans ?_ (State.settleChain_sameBut _ g)
  rw [State.galley_setGalley_self, State.flushUnits_galley]
  rfl
end Sys2Proof.Machine
end

section
/-! PROOFS. The galley commands CREATE, FLUSH and DELETE (R164 to R166, R187, R189). -/
namespace Sys2Proof.Machine

/-! ## A galley command served -/

theorem Quiet.journaled {s t : State} (h : Quiet s t) : t.journaled = s.journaled := by
  unfold State.journaled
  rw [h.ctl]
  rfl
/-- The work of a galley command's answer stands behind its effect's. -/
def State.galleyDone (t : State) : State := if t.journaled then t.poolJobs [.answer] else t
/-- What POOL and JRN do behind the act of a galley command. -/
def Reply.afterGalley (a : Reply) : Reply :=
  match a with
  | .ok t => .ok t.galleyDone.poolRun.syncConfig
  | .hold t => .hold t.poolRun
  | b => b

variable {s : State} {r : Request}

theorem writesValue_of_writes {i sub v : Nat} (h : Claims.writes s r i sub v) : Request.writesValue i v r = true := by
  obtain ⟨-, -, -, hs, hi, -, hv, -⟩ := h
  simp [Request.writesValue, Request.writesTo, hs, hi, hv]
theorem exec_galleyCreate (h : Claims.writes s r 0x7012 0 1) :
    exec .galleyCreate s = .next (s.reply r (s.galleyCreate s.selGalley).afterGalley) :=
  congrArg Host.Outcome.next (s.serveFor_write r _ _ _ _ h (writesValue_of_writes h))
theorem exec_galleyFlush (h : Claims.writes s r 0x7012 0 2) :
    exec .galleyFlush s = .next (s.reply r (s.galleyFlush s.selGalley).afterGalley) :=
  congrArg Host.Outcome.next (s.serveFor_write r _ _ _ _ h (writesValue_of_writes h))
theorem exec_galleyDelete (h : Claims.writes s r 0x7012 0 3) :
    exec .galleyDelete s = .next (s.reply r (s.galleyDelete s.selGalley).afterGalley) :=
  congrArg Host.Outcome.next (s.serveFor_write r _ _ _ _ h (writesValue_of_writes h))

@[simp] theorem State.galleyDone_galley (t : State) (g : Nat) : t.galleyDone.galley g = t.galley g := by
  unfold State.galleyDone
  split
  · exact t.poolJobs_galley _ g
  · rfl
theorem State.galleyDone_jobs (t : State) : t.galleyDone.pool.jobs = t.pool.jobs ++ if t.journaled then [.answer] else [] := by
  unfold State.galleyDone
  split <;> simp
theorem Quiet.galleyDone {t : State} (h : Quiet s t) : Quiet s t.galleyDone := Quiet.ite (h.poolJobs _) h
theorem State.syncConfig_mem_pool (t : State) : t.syncConfig.mem = t.mem ∧ t.syncConfig.pool = t.pool := by
  rw [State.syncConfig_eq]
  exact ⟨rfl, rfl⟩
/-- A command that is done leaves memory, and POOL goes on from its effect and its answer's work. -/
theorem State.reply_galleyDone {t : State} (h : Quiet s t) : (s.reply r (Reply.ok t).afterGalley).mem = s.mem ∧
    (s.reply r (Reply.ok t).afterGalley).pool = t.galleyDone.poolRun.pool := by
  obtain ⟨hm, hp⟩ := t.galleyDone.poolRun.syncConfig_mem_pool
  obtain ⟨km, -, -, -, kp, -⟩ := s.reply_keeps t.galleyDone.poolRun.syncConfig r
  exact ⟨km.trans (hm.trans h.galleyDone.poolRun.mem), kp.trans hp⟩

theorem State.reply_galleyHeld (t : State) : s.reply r (Reply.hold t).afterGalley = t.poolRun := rfl
theorem State.reply_galleyRefused (code : Nat) : s.reply r (Reply.refuse code).afterGalley = s.refuseRequest r code := rfl

/-! ## CREATE (R164, R165) -/

/-- TYPE and WIDTH of the definition in the galley window are in their range. -/
def State.galleyLegal (s : State) : Prop :=
  s.obj 0x7011 1 ≤ 1 ∧ (s.obj 0x7011 1 = 1 ∨ (8 ≤ s.obj 0x7011 2 ∧ s.obj 0x7011 2 ≤ 992))
/-- The galley does not exist, and the pool has shared cells for the reservation. -/
def State.galleyRoom (s : State) (g : Nat) : Prop :=
  (s.galley g).state = .absent ∧ s.poolCells ≠ 0 ∧ s.obj 0x7011 3 ≤ s.sharedFree
/-- The galley of the definition in the galley window, empty. -/
def State.newGalley (s : State) : Galley :=
  { state := .active, packet := decide (s.obj 0x7011 1 = 1), width := if s.obj 0x7011 1 = 1 then 0 else s.obj 0x7011 2
    reserve := s.obj 0x7011 3, limit := s.obj 0x7011 4, jpos := s.jrn.head }
/-- The galley exists, and its descriptor is to be written. -/
def State.createGalley (s : State) (g : Nat) : State := (s.setGalley g s.newGalley).poolLow.writeDesc g

/-- CREATE's three outcomes, in the order of its checks. -/
theorem State.galleyCreate_cases (g : Nat) (hm : s.ctl.mode.galleyMode = true) :
    (¬ s.galleyLegal → s.galleyCreate g = .refuse abortRange) ∧
      (s.galleyLegal → ¬ s.galleyRoom g → s.galleyCreate g = .refuse abortState) ∧
      (s.galleyLegal → s.galleyRoom g → s.galleyCreate g = .ok (s.createGalley g)) := by
  have hl : (1 < s.obj 0x7011 1 ∨ ((!decide (s.obj 0x7011 1 = 1)) = true ∧ (s.obj 0x7011 2 < 8 ∨ 992 < s.obj 0x7011 2))) ↔
      ¬ s.galleyLegal := by
    simp only [State.galleyLegal, Bool.not_eq_true', decide_eq_false_iff_not]
    omega
  have hr : ((s.galley g).state ≠ .absent ∨ s.poolCells = 0 ∨ s.sharedFree < s.obj 0x7011 3) ↔ ¬ s.galleyRoom g := by
    refine ⟨fun h k => ?_, fun h => ?_⟩
    · obtain ⟨ha, hp, hs⟩ := k
      obtain h | h | h := h
      · exact h ha
      · exact hp h
      · omega
    · by_cases ha : (s.galley g).state = .absent
      · have hk : ¬ (s.poolCells ≠ 0 ∧ s.obj 0x7011 3 ≤ s.sharedFree) := fun k => h ⟨ha, k⟩
        exact .inr (by omega)
      · exact .inl ha
  unfold State.galleyCreate
  simp only [hm, Bool.not_true, Bool.false_eq_true, if_false]
  refine ⟨fun h => if_pos (hl.mpr h), fun h k => ?_, fun h k => ?_⟩
  · rw [if_neg fun e => hl.mp e h]
    exact if_pos (hr.mpr k)
  · rw [if_neg fun e => hl.mp e h, if_neg fun e => hr.mp e k]
    simp [State.createGalley, State.newGalley]

theorem State.createGalley_quiet (s : State) (g : Nat) : Quiet s (s.createGalley g) := (((Quiet.refl s).setGalley _ _).poolLow).writeDesc _
@[simp] theorem State.createGalley_galley (s : State) (g : Nat) : (s.createGalley g).galley g = s.newGalley := by
  rw [State.createGalley, State.writeDesc_galley, State.poolLow_galley, State.galley_setGalley_self]
theorem State.createGalley_jobs (s : State) (g : Nat) : (s.createGalley g).pool.jobs = s.pool.jobs ++ [.desc g false] := by
  rw [State.createGalley, State.writeDesc, State.poolJobs_jobs, State.poolLow_jobs]
  rfl

/-! ## FLUSH (R187, R189) -/

/-- CTL keeps the position of a record that an answer waits for. -/
def State.holdAt (t : State) (p : Nat) : State := { t with ctl := { t.ctl with holdPos := some p } }
/-- A galley's record is issued and its FLUSH done: the answer waits for the record. -/
def State.flushJournaled (s : State) (g : Nat) : State := ((s.writeRecord (s.flushRecord g)).flushGalley g).holdAt s.jrn.head

@[simp] theorem State.holdAt_mem (t : State) (p : Nat) : (t.holdAt p).mem = t.mem := rfl
@[simp] theorem State.holdAt_jrn (t : State) (p : Nat) : (t.holdAt p).jrn = t.jrn := rfl
@[simp] theorem State.holdAt_ctl (t : State) (p : Nat) : (t.holdAt p).ctl = { t.ctl with holdPos := some p } := rfl
@[simp] theorem State.holdAt_galley (t : State) (p g : Nat) : (t.holdAt p).galley g = t.galley g := rfl

variable {g : Nat}

theorem State.flushThen_sealing (after : State → State) (h : (s.galley g).sealing ≠ none) : s.flushThen g after = .hold s :=
  if_pos (Option.isSome_iff_ne_none.mpr h)
theorem State.flushThen_plain (after : State → State) (h : (s.galley g).sealing = none) (hj : s.journaled = false) :
    s.flushThen g after = .ok (after (s.flushGalley g)) := by
  unfold State.flushThen
  rw [if_neg (by simp [h]), if_neg (by simp [hj])]

section
variable (hh : s.ctl.holdPos = none)
include hh

theorem State.flushThen_journaled (h : (s.galley g).sealing = none) (hj : s.journaled = true) (ha : admits s .flush = true) :
    s.flushThen g id = .hold (s.flushJournaled g) := by
  unfold State.flushThen
  rw [if_neg (by simp [h]), if_pos hj, hh]
  exact if_pos ha

theorem State.galleyFlush_refused (h : (s.galley g).state = .absent ∨ (s.galley g).state = .rebuilding) :
    s.galleyFlush g = .refuse abortState := by
  unfold State.galleyFlush
  rw [if_neg (by simp [hh])]
  exact if_pos (.inr h)
theorem State.galleyDelete_refused (h : (s.galley g).state = .absent) : s.galleyDelete g = .refuse abortState := by
  unfold State.galleyDelete
  rw [if_neg (by simp [hh])]
  exact if_pos (.inr h)

variable (hm : s.ctl.mode.galleyMode = true)
include hm

theorem State.galleyFlush_taken (h1 : (s.galley g).state ≠ .absent) (h2 : (s.galley g).state ≠ .rebuilding) :
    s.galleyFlush g = s.flushThen g id := by
  unfold State.galleyFlush
  rw [if_neg (by simp [hh])]
  exact if_neg (by simp [hm, h1, h2])
theorem State.galleyDelete_taken (h : (s.galley g).state ≠ .absent) :
    s.galleyDelete g = s.flushThen g fun t => t.dropGalley g := by
  unfold State.galleyDelete
  rw [if_neg (by simp [hh])]
  exact if_neg (by simp [hm, h])

end

/-- A FLUSH keeps the galley's state and its held entries, leaves no open unit, and is counted. -/
theorem State.flushGalley_keeps (s : State) (g : Nat) : ((s.flushGalley g).galley g).state = (s.galley g).state ∧
    ((s.flushGalley g).galley g).entries = (s.galley g).held ∧ ((s.flushGalley g).galley g).units = [] ∧
    ((s.flushGalley g).galley g).flushes = satAdd u32Max (s.galley g).flushes 1 := by
  have h := s.flushGalley_galley g
  unfold Galley.sameBut at h
  rw [h]
  exact ⟨rfl, rfl, rfl, rfl⟩

theorem State.writeRecord_head (s : State) (k : Record) : (s.writeRecord k).jrn.head = s.jrn.head + 1 := by
  unfold State.writeRecord State.issueRecord
  dsimp only
  split <;> simp [State.issueLocal]
theorem State.flushJournaled_keeps (s : State) (g : Nat) : ((s.flushJournaled g).galley g).entries = (s.galley g).held ∧
    ((s.flushJournaled g).galley g).units = [] := by
  obtain ⟨-, he, hu, -⟩ := (s.writeRecord (s.flushRecord g)).flushGalley_keeps g
  rw [State.flushJournaled, State.holdAt_galley, he, hu, State.galley_congr (State.writeRecord_pool ..)]
  exact ⟨rfl, rfl⟩
/-- POOL goes on from a FLUSH whose record is issued: what waits at CTL stays, the record's position is kept, and JRN has given out one
position. -/
theorem State.flushJournaled_poolRun (s : State) (g : Nat) : (s.flushJournaled g).poolRun.mem = s.mem ∧
    (s.flushJournaled g).poolRun.ctl.waiting = s.ctl.waiting ∧
    (s.flushJournaled g).poolRun.ctl.holdPos = some s.jrn.head ∧ (s.flushJournaled g).poolRun.jrn.head = s.jrn.head + 1 := by
  have h := (Quiet.refl (s.flushJournaled g)).poolRun
  have k : Quiet s ((s.writeRecord (s.flushRecord g)).flushGalley g) := ((Quiet.refl s).writeRecord _).flushGalley g
  refine ⟨?_, ?_, ?_, ?_⟩
  · rw [h.mem, State.flushJournaled, State.holdAt_mem, k.mem]
  · rw [h.ctl, State.flushJournaled, State.holdAt_ctl, k.ctl]
  · rw [h.ctl, State.flushJournaled, State.holdAt_ctl]
  · rw [State.poolRun_jrn, State.flushJournaled, State.holdAt_jrn, State.flushGalley_jrn, State.writeRecord_head]

/-! ## DELETE (R166) -/

theorem Quiet.dropGalley {t : State} (h : Quiet s t) (g : Nat) : Quiet s (t.dropGalley g) := by
  unfold State.dropGalley
  exact (((h.freeMarks _).setGalley _ _).poolLow).endDelete g
/-- A galley that is deleted with nothing held is absent at once; else it keeps what is held. -/
theorem State.dropGalley_keeps (s : State) (g : Nat) (h : (s.galley g).units = []) :
    ((s.dropGalley g).galley g).state = (if (s.galley g).held = [] then .absent else .deleting) ∧
      ((s.dropGalley g).galley g).entries = (if (s.galley g).held = [] then [] else (s.galley g).entries) ∧
      ((s.dropGalley g).galley g).units = [] := by
  have hy : ((s.freeMarks fun m => decide (m.galley = g)).setGalley g
      { s.galley g with state := .deleting, reserve := 0 }).poolLow.galley g = { s.galley g with state := .deleting, reserve := 0 } := by
    rw [State.poolLow_galley, State.galley_setGalley_self]
  unfold State.dropGalley State.endDelete
  simp only [State.freeMarks_galley, hy]
  by_cases hheld : (s.galley g).held = []
  · rw [if_pos ⟨trivial, List.isEmpty_iff.mpr hheld⟩, if_pos hheld, if_pos hheld]
    simp only [State.freeAll_galley, State.galley_setGalley_self]
    exact ⟨trivial, trivial, trivial⟩
  · rw [if_neg fun e => hheld (List.isEmpty_iff.mp e.2), if_neg hheld, if_neg hheld, hy]
    exact ⟨rfl, rfl, h⟩
/-- DELETE without a journal: a FLUSH, and the galley's end. -/
theorem State.flushGalley_dropGalley (s : State) (g : Nat) :
    (((s.flushGalley g).dropGalley g).galley g).state = (if (s.galley g).held = [] then .absent else .deleting) ∧
      (((s.flushGalley g).dropGalley g).galley g).entries = (s.galley g).held ∧
      (((s.flushGalley g).dropGalley g).galley g).units = [] := by
  obtain ⟨-, he, hu, -⟩ := s.flushGalley_keeps g
  obtain ⟨hd, hk, hn⟩ := (s.flushGalley g).dropGalley_keeps g hu
  have hheld : ((s.flushGalley g).galley g).held = (s.galley g).held := by
    rw [Galley.held, he, Galley.held, List.filter_filter]
    simp
  rw [hheld] at hd hk
  refine ⟨hd, hk.trans ?_, hn⟩
  rw [he]
  exact ite_eq_right_iff.mpr Eq.symm

/-! ## The obligation -/

/-- Settles O38: the checks decide each command's outcome; a FLUSH discards the open units one by one and keeps the held entries, a
DELETE follows it, and POOL's work behind either leaves CTL's queue and JRN's records. -/
theorem galleyCommandsCreateFlushAndDelete : Obligations.GalleyCommandsCreateFlushAndDelete := by
  rintro s r g rfl hh hm
  refine ⟨fun hw => ?create, fun hw => ?flush, fun hw => ?delete⟩
  case create =>
    obtain ⟨hrange, hstate, hdone⟩ := State.galleyCreate_cases s.selGalley hm
    rw [exec_galleyCreate hw]
    refine ⟨fun h => by rw [hrange h, State.reply_galleyRefused, abortRange],
      fun h k => by rw [hstate h k, State.reply_galleyRefused, abortState], fun h k => ?_⟩
    have hq := s.createGalley_quiet s.selGalley
    obtain ⟨hmem, hpool⟩ := State.reply_galleyDone (r := r) hq
    rw [hdone h k]
    refine ⟨(s.createGalley s.selGalley).galleyDone, _, rfl, hmem, hpool, ?_⟩
    rw [State.galleyDone_galley, State.createGalley_galley, State.galleyDone_jobs, State.createGalley_jobs, hq.journaled]
    exact ⟨rfl, rfl, rfl, rfl, rfl, rfl, rfl, rfl⟩
  case flush =>
    rw [exec_galleyFlush hw]
    refine ⟨fun h => by rw [State.galleyFlush_refused hh h, State.reply_galleyRefused, abortState],
      fun h1 h2 hs hj => ?_, fun h1 h2 hs hj ha => ?_, fun h1 h2 hs => ?_⟩
    · have hq : Quiet s (s.flushGalley s.selGalley) := (Quiet.refl s).flushGalley _
      obtain ⟨hmem, hpool⟩ := State.reply_galleyDone (r := r) hq
      obtain ⟨-, he, hu, hf⟩ := s.flushGalley_keeps s.selGalley
      rw [State.galleyFlush_taken hh hm h1 h2, State.flushThen_plain id hs hj]
      refine ⟨(s.flushGalley s.selGalley).galleyDone, _, rfl, hmem, hpool, ?_⟩
      rw [State.galleyDone_galley]
      exact ⟨he, hu, hf⟩
    · obtain ⟨he, hu⟩ := s.flushJournaled_keeps s.selGalley
      obtain ⟨hmem, hwait, hpos, hhead⟩ := s.flushJournaled_poolRun s.selGalley
      rw [State.galleyFlush_taken hh hm h1 h2, State.flushThen_journaled hh hs hj ha, State.reply_galleyHeld]
      exact ⟨s.flushJournaled s.selGalley, _, rfl, hmem, rfl, he, hu, hwait, hpos, hhead⟩
    · rw [State.galleyFlush_taken hh hm h1 h2, State.flushThen_sealing id hs, State.reply_galleyHeld]
  case delete =>
    rw [exec_galleyDelete hw]
    refine ⟨fun h => by rw [State.galleyDelete_refused hh h, State.reply_galleyRefused, abortState], fun h1 hs hj => ?_⟩
    have hq : Quiet s ((s.flushGalley s.selGalley).dropGalley s.selGalley) := ((Quiet.refl s).flushGalley _).dropGalley _
    obtain ⟨hmem, hpool⟩ := State.reply_galleyDone (r := r) hq
    obtain ⟨hd, he, hu⟩ := s.flushGalley_dropGalley s.selGalley
    rw [State.galleyDelete_taken hh hm h1, State.flushThen_plain _ hs hj]
    refine ⟨((s.flushGalley s.selGalley).dropGalley s.selGalley).galleyDone, _, rfl, hmem, hpool, ?_⟩
    rw [State.galleyDone_galley]
    exact ⟨hd, he, hu⟩

end Sys2Proof.Machine
end

section
/-! PROOFS. What stands at CTL for a write's response, and memory, while DRAIN, the links and the legacy slots go on (R62, R270, R381). -/
namespace Sys2Proof.Machine

/-- t has memory and what CTL holds for the response of a write as s has them. -/
structure SameDue (s t : State) : Prop where
  mem : t.mem = s.mem
  acted : t.ctl.acted = s.ctl.acted
  due : t.ctl.due = s.ctl.due

theorem SameDue.refl (s : State) : SameDue s s := ⟨rfl, rfl, rfl⟩
theorem SameDue.trans {s t u : State} (h : SameDue s t) (k : SameDue t u) : SameDue s u :=
  ⟨k.mem.trans h.mem, k.acted.trans h.acted, k.due.trans h.due⟩
theorem SameDue.of_eq {s t : State} (hm : t.mem = s.mem) (hc : t.ctl = s.ctl) : SameDue s t := ⟨hm, by rw [hc], by rw [hc]⟩
theorem Quiet.sameDue {s t : State} (h : Quiet s t) : SameDue s t := ⟨h.mem, by rw [h.ctl], by rw [h.ctl]⟩
theorem Answered.sameDue {s t : State} (h : Answered s t) : SameDue s t := ⟨by rw [h.eq], by rw [h.eq], by rw [h.eq]⟩
theorem SameDue.ite {s t u : State} {p : Prop} [Decidable p] (h : SameDue s t) (k : SameDue s u) :
    SameDue s (if p then t else u) := by
  split
  · exact h
  · exact k
theorem SameDue.foldl {α : Type} {f : State → α → State} (hf : ∀ u a, SameDue u (f u a)) (l : List α) (s : State) :
    SameDue s (l.foldl f s) := by
  induction l generalizing s with
  | nil => exact .refl s
  | cons a l ih => exact (hf s a).trans (ih _)

variable (s : State)

/-! ## Doorbells and legacy slots -/

theorem State.judgeBell_quiet (id c : Nat) (p : BitVec 32) : Quiet s (s.judgeBell id c p) := by
  have h := Quiet.refl s
  have empty : Quiet s (s.emptyBell c id) := Quiet.ite (h.respondBell _ _ _ _) (h.setCtx _ _)
  unfold State.judgeBell
  dsimp only
  exact Quiet.ite (h.respondBell _ _ _ _) (Quiet.ite (empty.raise _) (Quiet.ite ((h.setCtx _ _).respondBell _ _ _ _)
    (Quiet.ite (h.respondBell _ _ _ _) (Quiet.ite empty (Quiet.ite ((h.setCtx _ _).respondBell _ _ _ _)
      ((h.setCtx _ _).askHeader _))))))
theorem State.judgeEarly_sameDue (c : Nat) : SameDue s (s.judgeEarly c) := by
  have h (u : State) (l : List (Nat × BitVec 32)) : SameDue u (l.foldl (fun t e => t.judgeBell e.1 c e.2) u) := by
    refine SameDue.foldl (fun u e => ?_) l u
    exact (u.judgeBell_quiet e.1 c e.2).sameDue
  unfold State.judgeEarly
  exact SameDue.trans ((Quiet.refl s).modCtx c _).sameDue (h _ _)

theorem State.abortRun_quiet (k : Nat) : Quiet s (s.abortRun k) := Quiet.ite (((Quiet.refl s).withdraw _).setSlot _ _) (.refl s)
theorem State.startRun_quiet (k : Nat) : Quiet s (s.startRun k) := ((Quiet.refl s).setSched _).setSlot _ _
theorem State.writeCtrl_quiet (k v : Nat) : Quiet s (s.writeCtrl k v) := by
  have h1 : Quiet s (s.setSlot k ((s.slot k).writeReg 0x18 v)) := (Quiet.refl s).setSlot _ _
  have h2 := h1.trans (Quiet.ite (p := bitOf v 1 = true) (State.abortRun_quiet _ k) (.refl _))
  exact Quiet.ite (Quiet.ite (h2.trans (State.startRun_quiet _ k)) (h2.setSlot _ _)) h2
theorem State.writeSlot_quiet (k reg v : Nat) : Quiet s (s.writeSlot k reg v) :=
  Quiet.ite (s.writeCtrl_quiet k v) ((Quiet.refl s).setSlot _ _)

/-! ## Links -/

theorem State.dropLink_sameDue (l : Nat) : SameDue s (s.dropLink l) := by
  unfold State.dropLink
  refine SameDue.ite ?_ (.refl s)
  rw [(s.linkDown_link l).1]
  exact .of_eq rfl rfl
theorem State.awaitLock_sameDue (l : Nat) : SameDue s (s.awaitLock l) := SameDue.ite (.of_eq rfl rfl) (.refl s)
theorem State.awaitLocks_sameDue : SameDue s s.awaitLocks := SameDue.foldl (fun u l => u.awaitLock_sameDue l) _ s
theorem State.linkForce_sameDue (l v : Nat) : SameDue s (s.linkForce l v) := by
  unfold State.linkForce
  exact SameDue.ite (SameDue.ite ((s.dropLink_sameDue l).trans (.of_eq rfl rfl)) (s.dropLink_sameDue l)) (s.awaitLock_sameDue l)

/-! ## Modes and DRAIN -/

theorem State.enterMode_sameDue (m : Mode) (cause : Nat) : SameDue s (s.enterMode m cause) := by
  have h : SameDue s { s with
      ctl := { s.ctl with mode := m, modeCause := cause }
      prot := if m = .config then { s.prot with refusals := 0, locked := false } else s.prot } := ⟨rfl, rfl, rfl⟩
  exact h.trans ((Quiet.refl _).raise _).sameDue
theorem State.stage'_sameDue (r : RecoverStage) : SameDue s (s.stage' r) := ⟨rfl, rfl, rfl⟩
theorem State.freeDrain_sameDue : SameDue s s.freeDrain := ⟨rfl, rfl, rfl⟩
theorem State.holdDrain_sameDue (cause : Nat) : SameDue s (s.holdDrain cause) := by
  have h : SameDue s { s with ctl := { s.ctl with drainHeld := cause } } := ⟨rfl, rfl, rfl⟩
  exact h.trans ((Quiet.refl _).raiseIf _ _).sameDue
theorem State.enterHalt_sameDue (cause : Nat) : SameDue s (s.enterHalt cause) := by
  have h : SameDue s { s with ctl := { s.ctl with recoverStage := .none }, fab := { s.fab with held := [] } } := ⟨rfl, rfl, rfl⟩
  exact (h.trans (State.enterMode_sameDue _ _ _)).trans (SameDue.foldl (fun u l => u.dropLink_sameDue l) _ _)
theorem State.beginSurvey_sameDue (cause : Nat) : SameDue s (s.beginSurvey cause) := by
  have h0 := SameDue.foldl (fun (u : State) (e : Nat × Ctx) => u.judgeEarly_sameDue e.1) s.ctxs s
  have h1 (u : State) : SameDue u { u with ctxs := [], ctl := { u.ctl with surveyResult := 1 } } := ⟨rfl, rfl, rfl⟩
  have h2 (l : List Nat) (u : State) : SameDue u (l.foldl (fun t i => t.setIsland i { t.island i with testStatus := 1 }) u) :=
    SameDue.foldl (fun u i => .of_eq (u.setIsland_mem i _) (u.setIsland_ctl i _)) l u
  unfold State.beginSurvey
  exact (((h0.trans (h1 _)).trans (h2 _ _)).trans (State.enterMode_sameDue _ _ _)).trans (State.awaitLocks_sameDue _)
theorem State.leaveDrain_sameDue : SameDue s s.leaveDrain := by
  have h : SameDue s { s.freeDrain with twin := { s.freeDrain.twin with state := 0 } } := ⟨rfl, rfl, rfl⟩
  exact h.trans (Quiet.refl _).releaseWaiting.sameDue
theorem State.drainInto_sameDue (m : Mode) : SameDue s (s.drainInto m) := by
  have h := s.freeDrain_sameDue
  unfold State.drainInto
  split
  · exact (h.trans (State.enterHalt_sameDue _ _)).trans (State.leaveDrain_sameDue _)
  · exact (h.trans (State.beginSurvey_sameDue _ _)).trans (State.leaveDrain_sameDue _)
  · exact (h.trans (State.enterMode_sameDue _ _ _)).trans (State.leaveDrain_sameDue _)
theorem State.beginClose_sameDue : SameDue s s.beginClose :=
  SameDue.ite (((Quiet.refl s).writeRecord _).sameDue.trans (State.stage'_sameDue _ _)) ((Quiet.refl s).journalFull _).sameDue
theorem State.sendHello_sameDue : SameDue s s.sendHello := by
  have h : SameDue s { s with twin := { s.twin with answer := none } } := ⟨rfl, rfl, rfl⟩
  exact h.trans ((Quiet.refl _).sendFrame _).sameDue
theorem State.beginHello_sameDue : SameDue s s.beginHello := (s.stage'_sameDue _).trans (State.sendHello_sameDue _)
theorem State.openRecord_sameDue (m : Mode) (cause : Nat) : SameDue s (s.openRecord m cause) :=
  (((Quiet.refl s).setJrn _).issueLocal _).sameDue
theorem State.ship_sameDue (first upTo : Nat) (b : Bool) : SameDue s (s.ship first upTo b) :=
  SameDue.foldl (fun u _ => ((Quiet.refl u).sendFrame _).sameDue) _ s
theorem State.beginOpen_sameDue (m : Mode) (cause : Nat) : SameDue s (s.beginOpen m cause) := by
  have h := (s.openRecord_sameDue m cause).trans (State.stage'_sameDue _ .opening)
  have k (u : State) : SameDue u { u with twin := { u.twin with held := false, unreachableRaised := false } } := ⟨rfl, rfl, rfl⟩
  unfold State.beginOpen
  exact SameDue.ite ((Quiet.refl s).journalFull _).sameDue (SameDue.ite ((h.trans (k _)).trans (State.ship_sameDue _ _ _ _)) h)
theorem State.drainTry_sameDue : SameDue s s.drainTry := by
  have h := s.freeDrain_sameDue
  unfold State.drainTry
  exact SameDue.ite
    (SameDue.ite (s.holdDrain_sameDue _) (SameDue.ite (h.trans (State.beginClose_sameDue _)) (s.drainInto_sameDue _)))
    (SameDue.ite (s.holdDrain_sameDue _)
      (SameDue.ite ((SameDue.ite (.refl s) h).trans (State.beginHello_sameDue _)) (h.trans (State.beginOpen_sameDue _ _ _))))
theorem State.drainCheck_sameDue : SameDue s s.drainCheck :=
  SameDue.ite ((s.stage'_sameDue _).trans (State.drainTry_sameDue _)) (.refl s)

/-! ## What comes with a response (R381, R383, R404) -/

theorem State.inForce_sameDue (i sub v : Nat) : SameDue s (s.inForce i sub v) := by
  unfold State.inForce
  exact SameDue.ite ⟨rfl, rfl, rfl⟩ (SameDue.ite ((Quiet.refl s).modCtx _ _).sameDue
    (SameDue.ite (s.writeSlot_quiet _ _ _).sameDue (.of_eq rfl rfl)))
theorem State.dueNow_sameDue (due : Option (Nat × Nat × Nat)) : SameDue s (s.dueNow due) := by
  cases due with
  | none => exact .refl s
  | some d =>
    obtain ⟨i, sub, v⟩ := d
    have h := s.inForce_sameDue i sub v
    exact SameDue.ite (h.trans (State.drainCheck_sameDue _)) (SameDue.ite (h.trans (State.linkForce_sameDue _ _ _)) h)
/-- What follows a response changes the RULE point, CHANGES and the events alone. -/
theorem State.followNow_eq (a : After) : ∃ t : State, Quiet t (s.followNow a) ∧
    t = { s with ctl := { s.ctl with rulePoint := t.ctl.rulePoint }, prot := { s.prot with changes := t.prot.changes } } := by
  cases a with
  | none => exact ⟨s, .refl s, rfl⟩
  | point => exact ⟨s.endPoint, .refl _, rfl⟩
  | protection => exact ⟨_, (Quiet.refl _).raise _, rfl⟩
theorem State.followNow_sameDue (a : After) : SameDue s (s.followNow a) := by
  obtain ⟨t, h, e⟩ := s.followNow_eq a
  refine SameDue.trans ?_ h.sameDue
  rw [e]
  exact ⟨rfl, rfl, rfl⟩
/-- The response of a write returns: memory stays, and nothing is held for a response any more. -/
theorem State.returned_keeps (r : Request) (due : Option (Nat × Nat × Nat)) (a : After) :
    (s.returned r due a).mem = s.mem ∧ (s.returned r due a).ctl.acted = false ∧ (s.returned r due a).ctl.due = none := by
  have h := ((({ s with ctl := { s.ctl with acted := false, due := none, after := .none } } : State).dueNow_sameDue due).trans
    (State.followNow_sameDue _ a)).trans (Answered.answerRequest _ r 0 []).sameDue
  exact ⟨h.mem, h.acted, h.due⟩

end Sys2Proof.Machine
end

section
/-! PROOFS. Maltur: requests that arrive, their answers, and NOTIFY (R369 to R373, R379). -/
namespace Sys2Proof.Machine

/-! ## Stuffed bytes (R371) -/

theorem stuff_append (p q : List Byte) : stuff (p ++ q) = stuff p ++ stuff q := List.flatMap_append ..
theorem stuff_singleton (b : Byte) : stuff [b] = if b = 0x7E then [0x7D, 0x5E] else if b = 0x7D then [0x7D, 0x5D] else [b] :=
  List.append_nil _
theorem unstuff_plain (b : Byte) (l : List Byte) (h : b ≠ 0x7D) : unstuff (b :: l) = (unstuff l).map fun x => (b :: x.1, x.2) := by
  rw [unstuff.eq_def]
  exact if_neg h
/-- Bytes that were stuffed read back, whatever follows them. -/
theorem unstuff_stuff_append (p l : List Byte) : unstuff (stuff p ++ l) = (unstuff l).map fun x => (p ++ x.1, x.2) := by
  induction p with
  | nil => simp [stuff]
  | cons b p ih =>
    have one : unstuff (stuff [b] ++ (stuff p ++ l)) = (unstuff (stuff p ++ l)).map fun x => (b :: x.1, x.2) := by
      rw [stuff_singleton]
      by_cases h1 : b = 0x7E
      · rw [if_pos h1, h1]
        rfl
      · by_cases h2 : b = 0x7D
        · rw [if_neg h1, if_pos h2, h2]
          rfl
        · rw [if_neg h1, if_neg h2]
          exact unstuff_plain b _ h2
    rw [← List.singleton_append, stuff_append, List.append_assoc, one, ih, Option.map_map]
    rfl

/-! ## The byte port's frame in progress (R371) -/

theorem fieldAt_append_left (p q : List Byte) (o n : Nat) (h : o + n ≤ p.length) : fieldAt (p ++ q) o n = fieldAt p o n := by
  rw [fieldAt, fieldAt, List.drop_append_of_le_length (by omega), List.take_append_of_le_length (by simp; omega)]

variable {s : State} {r : Request}

/-- The byte port's frame in progress is l, or there is none. -/
def State.receiving (s : State) (l : Option (List Byte)) : State := { s with ctl := { s.ctl with rx := l } }
@[simp] theorem State.receiving_rx (s : State) (l : Option (List Byte)) : (s.receiving l).ctl.rx = l := rfl
@[simp] theorem State.receiving_receiving (s : State) (l m : Option (List Byte)) : (s.receiving l).receiving m = s.receiving m := rfl
theorem State.receiving_self {l : Option (List Byte)} (h : s.ctl.rx = l) : s.receiving l = s := by
  subst h
  rfl

/-- A whole body of a request: its length is the one its own fields give. -/
def wholeBody (body : List Byte) : Prop := frameLen body = body.length ∧ fieldAt body 6 2 ≤ 256
theorem wholeBody_of_requestOf {route : Route} {body : List Byte} (h : requestOf route body = some r) : wholeBody body := by
  unfold requestOf at h
  dsimp only at h
  split at h
  · cases h
  · rename_i hn
    simp only [not_or, Decidable.not_not, Nat.not_lt] at hn
    obtain ⟨hl, h6, -⟩ := hn
    exact ⟨hl.symm, h6⟩
theorem frameLen_ge (body : List Byte) : 16 ≤ frameLen body := Nat.le_add_right ..
/-- The fields that give a body's length stand in its first 8 bytes. -/
theorem frameLen_append (p q : List Byte) (h : 8 ≤ p.length) :
    frameLen (p ++ q) = frameLen p ∧ fieldAt (p ++ q) 6 2 = fieldAt p 6 2 := by
  have h6 := fieldAt_append_left p q 6 2 (by omega)
  refine ⟨?_, h6⟩
  rw [frameLen, frameLen, dataLen, dataLen, h6, fieldAt_append_left p q 0 1 (by omega)]

section
variable {l p q : List Byte} {e : Bool} {x : Byte} (hx : x ≠ 0x7E) (hu : unstuff (l ++ [x]) = some (p, e)) (hb : wholeBody (p ++ q))
include hx hu hb

/-- A byte that leaves the body short is kept. -/
theorem State.byteIn_short (hq : q ≠ []) : (s.receiving (some l)).byteIn x = s.receiving (some (l ++ [x])) := by
  have hq' := List.length_pos_iff.mpr hq
  have hl := hb.1
  rw [List.length_append] at hl
  unfold State.byteIn
  simp only [if_neg hx, State.receiving_rx, hu]
  by_cases h8 : p.length < 8
  · exact if_pos h8
  · obtain ⟨hf, h6⟩ := frameLen_append p q (by omega)
    rw [if_neg h8, if_neg (by have := hb.2; omega), if_pos (by omega)]
    rfl
/-- The byte that makes the body whole hands it on. -/
theorem State.byteIn_whole (hq : q = []) : (s.receiving (some l)).byteIn x = (s.receiving none).bodyIn .bytePort p := by
  subst hq
  rw [List.append_nil] at hb
  have h16 := frameLen_ge p
  obtain ⟨hl, h6⟩ := hb
  unfold State.byteIn
  simp only [if_neg hx, State.receiving_rx, hu]
  rw [if_neg (by omega), if_neg (by omega), if_neg (by omega)]
  rfl

end

/-- The stuffed form of one byte of a body: it is kept, or hands the body on with its last. -/
theorem State.foldl_byteIn_stuff_one (p q : List Byte) (b : Byte) (hb : wholeBody (p ++ b :: q)) :
    (stuff [b]).foldl State.byteIn (s.receiving (some (stuff p))) =
      if q = [] then (s.receiving none).bodyIn .bytePort (p ++ [b]) else s.receiving (some (stuff (p ++ [b]))) := by
  have last (l : List Byte) (x : Byte) (hx : x ≠ 0x7E) (hl : l ++ [x] = stuff (p ++ [b])) :
      (s.receiving (some l)).byteIn x =
        if q = [] then (s.receiving none).bodyIn .bytePort (p ++ [b]) else s.receiving (some (stuff (p ++ [b]))) := by
    have hu : unstuff (l ++ [x]) = some (p ++ [b], false) := by
      rw [hl]
      simpa [unstuff] using unstuff_stuff_append (p ++ [b]) []
    have hb' : wholeBody (p ++ [b] ++ q) := by simpa using hb
    split
    · exact State.byteIn_whole hx hu hb' ‹_›
    · rw [State.byteIn_short hx hu hb' ‹_›, hl]
  have escape : (s.receiving (some (stuff p))).byteIn 0x7D = s.receiving (some (stuff p ++ [0x7D])) :=
    State.byteIn_short (by decide) (by simpa [unstuff] using unstuff_stuff_append p [0x7D]) hb (List.cons_ne_nil _ _)
  rw [stuff_append] at last ⊢
  by_cases h1 : b = 0x7E
  · subst h1
    have hs : stuff [0x7E] = [0x7D, 0x5E] := rfl
    rw [hs] at last ⊢
    rw [List.foldl_cons, escape]
    exact last (stuff p ++ [0x7D]) 0x5E (by decide) (List.append_assoc ..)
  · by_cases h2 : b = 0x7D
    · subst h2
      have hs : stuff [0x7D] = [0x7D, 0x5D] := rfl
      rw [hs] at last ⊢
      rw [List.foldl_cons, escape]
      exact last (stuff p ++ [0x7D]) 0x5D (by decide) (List.append_assoc ..)
    · have hs : stuff [b] = [b] := by rw [stuff_singleton, if_neg h1, if_neg h2]
      rw [hs] at last ⊢
      exact last (stuff p) b h1 rfl
/-- A whole body's stuffed bytes hand it on at their end. -/
theorem State.foldl_byteIn_stuff (p q : List Byte) (hq : q ≠ []) (hb : wholeBody (p ++ q)) :
    (stuff q).foldl State.byteIn (s.receiving (some (stuff p))) = (s.receiving none).bodyIn .bytePort (p ++ q) := by
  induction q generalizing p with
  | nil => exact absurd rfl hq
  | cons b q ih =>
    rw [← List.singleton_append, stuff_append, List.foldl_append, State.foldl_byteIn_stuff_one p q b hb]
    by_cases h : q = []
    · subst h
      rw [if_pos rfl]
      rfl
    · rw [if_neg h, ih _ h (by simpa using hb)]
      simp
/-- A stuffed frame behind its flag is the request of its body (R371). -/
theorem State.malturFrame_bytePort {body : List Byte} (hb : wholeBody body) (hr : s.ctl.rx = none) :
    s.malturFrame .bytePort (0x7E :: stuff body) = s.bodyIn .bytePort body := by
  have flag : s.byteIn 0x7E = s.receiving (some (stuff [])) := by
    unfold State.byteIn
    rw [if_pos rfl, hr]
    rfl
  have hne : body ≠ [] := by
    rintro rfl
    have := hb.1
    have := frameLen_ge []
    simp_all
  change (stuff body).foldl State.byteIn (s.byteIn 0x7E) = _
  rw [flag, State.foldl_byteIn_stuff [] body hne hb, State.receiving_self hr, List.nil_append]

/-! ## Requests that arrive (R315, R320, R369, R373) -/

theorem State.bodyIn_some {route : Route} {body : List Byte} (h : requestOf route body = some r) : s.bodyIn route body = s.requestIn r := by
  unfold State.bodyIn
  rw [h]
theorem State.requestIn_first (hw : s.ctl.waiting = []) (ha : s.ctl.lastAnswered = none) :
    s.requestIn r = { s with ctl := { s.ctl with waiting := [r] } } := by
  unfold State.requestIn
  rw [hw, ha]
/-- Behind the request being served: a repeat of it is dropped, and 16 others may wait. -/
theorem State.requestIn_behind {q : Request} {l : List Request} (hw : s.ctl.waiting = q :: l) : s.requestIn r =
    if r = q then s
    else if 16 ≤ l.length then s.discardFrame.raise .malturOverrun
    else { s with ctl := { s.ctl with waiting := q :: l ++ [r] } } := by
  unfold State.requestIn
  rw [hw]
theorem State.malturFrame_node (n : Nat) (body : List Byte) (hm : s.ctl.mode ≠ .halt) (hf : s.fab.nodeState ≠ 2) :
    s.malturFrame (.node n) body = s.bodyIn (.node n) body := if_neg (not_or.mpr ⟨hm, hf⟩)

theorem malturFramesAreQueued : Claims.MalturFramesAreQueued := by
  intro n body s
  have exec_eq (w : Route) (bs : List Byte) : exec (.malturFrame w bs) s = .next (s.malturFrame w bs) := rfl
  simp only [exec_eq]
  refine ⟨fun r hr hw ha hx => ?bytePort, fun h => congrArg _ (if_pos h), fun hm hf => ?node⟩
  case bytePort => rw [State.malturFrame_bytePort (wholeBody_of_requestOf hr) hx, State.bodyIn_some hr, State.requestIn_first hw ha]
  case node =>
    rw [State.malturFrame_node n body hm hf]
    refine ⟨fun r hr hw ha => ?_, fun r q l hr hw hne hl => ?_, fun r q l hr hw hne hl => ?_, fun r l hr hw => ?_, fun hr => ?_⟩
    · rw [State.bodyIn_some hr, State.requestIn_first hw ha]
    · rw [State.bodyIn_some hr, State.requestIn_behind hw, if_neg hne, if_neg (by omega)]
    · rw [State.bodyIn_some hr, State.requestIn_behind hw, if_neg hne, if_pos hl]
      rfl
    · rw [State.bodyIn_some hr, State.requestIn_behind hw, if_pos rfl]
    · unfold State.bodyIn
      rw [hr]
      rfl

/-! ## Answers (R368, R372, R373, R381) -/

theorem State.sendBody_queue (s : State) (w : Route) (b : List Byte) : (s.sendBody w b).ctl.waiting = s.ctl.waiting ∧
    (s.sendBody w b).ctl.lastAnswered = s.ctl.lastAnswered := by
  cases w with
  | bytePort => exact ⟨rfl, rfl⟩
  | node n => simp only [State.sendBody, State.sendFrame_ctl, and_self]
/-- Where the request at the front is no repeat of the last one answered, no answer is given again. -/
theorem State.answerRepeats_self (n : Nat) {q : Request} {a : Response} (ha : s.ctl.lastAnswered = some (q, a))
    (hw : q ∉ s.ctl.waiting) : s.answerRepeats n = s := by
  cases n with
  | zero => rfl
  | succ n =>
    unfold State.answerRepeats
    split
    · rename_i f l q' a' hf hq
      rw [ha] at hq
      obtain ⟨rfl, rfl⟩ := Prod.mk.inj (Option.some.inj hq)
      rw [if_neg]
      rintro rfl
      exact hw (hf ▸ List.mem_cons_self ..)
    · rfl
/-- The response to a request. -/
def Request.response (r : Request) (flags : Nat) (data : List Byte) : Response :=
  { service := r.service % 128 + 128, txn := r.txn, index := r.index, sub := r.sub, flags := flags
    offset := if r.service = 3 ∨ r.service = 4 then r.offset else 0, data := data }
/-- An answer to the request at the front, with no repeat of it behind. -/
theorem State.answerRequest_queue {l : List Request} (flags : Nat) (data : List Byte) (hw : s.ctl.waiting = r :: l) (hr : r ∉ l) :
    (s.answerRequest r flags data).ctl.waiting = l ∧
      (s.answerRequest r flags data).ctl.lastAnswered = some (r, r.response flags data) := by
  let u : State := { s with ctl := { s.ctl with waiting := s.ctl.waiting.drop 1, lastAnswered := some (r, r.response flags data) } }
  have hu : u.ctl.waiting = l := by simp [u, hw]
  obtain ⟨h1, h2⟩ := u.sendBody_queue r.route (r.response flags data).bytes
  have he : s.answerRequest r flags data = (u.sendBody r.route (r.response flags data).bytes).answerRepeats u.ctl.waiting.length := rfl
  rw [he, State.answerRepeats_self _ h2 (by rw [h1, hu]; exact hr), h1, h2, hu]
  exact ⟨rfl, rfl⟩

/-- The response of a write to an object that only holds a value: with it the value is in force (R381). -/
theorem State.returned_plain {l : List Request} (i sub v : Nat) (a : After) (hw : s.ctl.waiting = r :: l) (hr : r ∉ l)
    (hi : actingObjects.contains i = false) (hs : isSlotReg i sub = false) :
    (s.returned r (some (i, sub, v)) a).ctl.waiting = l ∧ (s.returned r (some (i, sub, v)) a).obj i sub = v := by
  have ne (k : Nat) (hk : actingObjects.contains k = true) : i ≠ k := by
    rintro rfl
    rw [hk] at hi
    cases hi
  have due (t : State) : t.dueNow (some (i, sub, v)) = t.setObj i sub v := by
    simp only [State.dueNow, State.inForce, hs, if_neg (ne 0x2001 rfl), if_neg (ne 0xC000 rfl), if_neg (ne 0x6051 rfl),
      Bool.false_eq_true, if_false]
  unfold State.returned
  rw [due]
  generalize hu : State.setObj _ i sub v = u
  have hv : u.obj i sub = v ∧ u.ctl.waiting = r :: l := by
    subst hu
    exact ⟨State.obj_setObj_self .., hw⟩
  obtain ⟨t, hq, ht⟩ := u.followNow_eq a
  have hfw : (u.followNow a).ctl.waiting = r :: l := by
    rw [hq.ctl, ht]
    exact hv.2
  have hfd : (u.followNow a).dict = u.dict := by rw [hq.dict, ht]
  have hans : ((u.followNow a).answerRequest r 0 []).dict = (u.followNow a).dict := by
    rw [(Answered.answerRequest (u.followNow a) r 0 []).eq]
  exact ⟨(State.answerRequest_queue 0 [] hfw hr).1, (State.obj_congr (hans.trans hfd) i sub).trans hv.1⟩

/-- A write that has had its effect: POOL goes on while it or JRN writes, and then the response returns (R164, R270, R283). -/
theorem State.serve_acted (h : s.ctl.acted = true) : s.serve r =
    if s.upkeepBusy || s.pool.jobs.contains .answer then s.poolRun else s.returned r s.ctl.due s.ctl.after := if_pos h

theorem answersLeaveTheQueue : Claims.AnswersLeaveTheQueue := by
  intro s r l flags code data hw hr
  have hq := State.answerRequest_queue (s := s) flags data hw hr
  have hc := State.answerRequest_queue (s := { s with ctl := { s.ctl with lastAbort := code } }) 4 (leBytes 4 code) hw hr
  refine ⟨hq.1, ?_, s.refuseRequest_lastAbort r code, ?_, fun ha hp => ?_⟩
  · rw [hq.2]
    rfl
  · rw [State.refuseRequest, hc.2]
    rfl
  · have he : exec .objectWrite s = .next (s.serve r) :=
      congrArg Host.Outcome.next (s.serveFor_front _ r (by rw [hw]; rfl) hp)
    rw [he, State.serve_acted ha]
    refine ⟨fun hb => congrArg _ (if_pos (Bool.or_eq_true_iff.mpr hb)), fun h1 h2 => ?_⟩
    rw [if_neg (by rw [h1, h2]; decide)]
    obtain ⟨hm, hact, hdue⟩ := s.returned_keeps r s.ctl.due s.ctl.after
    refine ⟨_, rfl, hm, hact, hdue, fun i sub v hd hi hs => ?_⟩
    rw [hd]
    exact State.returned_plain i sub v _ hw hr hi hs

/-! ## NOTIFY (R379) -/

theorem Response.bytes_service (a : Response) : fieldAt a.bytes 0 1 = a.service % 256 := by
  have h := fieldAt_append [] (leBytes 1 a.service) (a.bytes.drop 1) 1 (leBytes_length ..)
  rw [leNat_leBytes] at h
  exact h
theorem Response.bytes_txn (a : Response) : fieldAt a.bytes 1 1 = a.txn % 256 := by
  have h := fieldAt_append (leBytes 1 a.service) (leBytes 1 a.txn) (a.bytes.drop 2) 1 (leBytes_length ..)
  rw [leNat_leBytes] at h
  exact h
/-- DATA stands behind 12 bytes of a response's body (R370). -/
theorem Response.bytes_data (a : Response) (o n : Nat) (h : o + n ≤ a.data.length) :
    fieldAt a.bytes (12 + o) n = fieldAt a.data o n := by
  obtain ⟨crc, hb⟩ : ∃ crc, a.bytes.drop 12 = a.data ++ crc := ⟨_, rfl⟩
  rw [fieldAt, ← List.drop_drop, hb]
  exact fieldAt_append_left _ _ _ _ h

/-- The frame of a NOTIFY (R379). -/
def State.notifyBody (s : State) (event : Nat) : Response :=
  { service := 6, txn := s.ctl.notifyCount % 256, index := 0, sub := 0, flags := 0, offset := 0
    data := leBytes 2 event ++ leBytes 2 (Tab.get zeroTab s.ctl.notifyPending event) ++ leBytes 1 s.ctl.mode.code ++ leBytes 3 0 }
/-- The count of an event's raises begins anew, and its NOTIFY is no longer due. -/
def State.notified (s : State) (event : Nat) : State :=
  { s with ctl := { s.ctl with notifyCount := s.ctl.notifyCount + 1
                               notifyDue := Tab.put zeroTab s.ctl.notifyDue event 0
                               notifyPending := Tab.put zeroTab s.ctl.notifyPending event 0 } }

theorem Mode.code_lt (m : Mode) : m.code < 256 := by cases m <;> decide
theorem State.notifyBody_fields (s : State) (event : Nat) :
    fieldAt (s.notifyBody event).bytes 0 1 = 6 ∧ fieldAt (s.notifyBody event).bytes 1 1 = s.ctl.notifyCount % 256 ∧
      fieldAt (s.notifyBody event).bytes 12 2 = event % 65536 ∧
      fieldAt (s.notifyBody event).bytes 14 2 = Tab.get zeroTab s.ctl.notifyPending event % 65536 ∧
      fieldAt (s.notifyBody event).bytes 16 1 = s.ctl.mode.code := by
  have hl : (s.notifyBody event).data.length = 8 := by simp [State.notifyBody]
  have he := (s.notifyBody event).bytes_data 0 2 (by omega)
  have hn := (s.notifyBody event).bytes_data 2 2 (by omega)
  have hm := (s.notifyBody event).bytes_data 4 1 (by omega)
  refine ⟨Response.bytes_service _, (Response.bytes_txn _).trans (Nat.mod_mod _ _), he.trans ?_, hn.trans ?_, hm.trans ?_⟩
  · exact (fieldAt_append [] (leBytes 2 event) _ 2 (leBytes_length ..)).trans (leNat_leBytes ..)
  · exact (fieldAt_append (leBytes 2 event) (leBytes 2 _) _ 2 (leBytes_length ..)).trans (leNat_leBytes ..)
  · refine ((fieldAt_append (leBytes 2 event ++ leBytes 2 _) (leBytes 1 s.ctl.mode.code) _ 1 (leBytes_length ..)).trans
      (leNat_leBytes ..)).trans ?_
    exact Nat.mod_eq_of_lt (Mode.code_lt _)
/-- NOTIFY, by whether the event is due one. -/
theorem State.notify_eq {route : Route} (event : Nat) (h : s.notifyRoute = some route) : s.notify event =
    if Tab.get zeroTab s.ctl.notifyDue event = 0 then s else (s.notified event).sendBody route (s.notifyBody event).bytes := by
  unfold State.notify
  rw [h]
  rfl

theorem notifyReportsAndClearsItsCount : Claims.NotifyReportsAndClearsItsCount := by
  intro event route s hr
  have he : exec (.notify event) s = .next (s.notify event) := rfl
  rw [he, State.notify_eq event hr]
  refine ⟨fun h => congrArg _ (if_pos h), fun h => ?_⟩
  rw [if_neg h]
  have hs := (Answered.sendBody (s.notified event) route (s.notifyBody event).bytes).eq
  refine ⟨_, rfl, ?_, ?_, ?_, ?_, ?_⟩
  · rw [hs]
    rfl
  · rw [hs]
    rfl
  · rw [hs]
    exact Tab.get_put_self zeroTab s.ctl.notifyDue event 0
  · rw [hs]
    exact Tab.get_put_self zeroTab s.ctl.notifyPending event 0
  · rintro rfl
    exact ⟨(s.notifyBody event).bytes, rfl, s.notifyBody_fields event⟩

/-- Settles O36: a stuffed frame is taken byte by byte up to the length that its own fields give; what comes into force with a response
leaves memory and the requests that wait; and a NOTIFY's fields stand in DATA, behind 12 bytes. -/
theorem requestsAreQueuedAnsweredAndNotified : Obligations.RequestsAreQueuedAnsweredAndNotified :=
  ⟨malturFramesAreQueued, answersLeaveTheQueue, notifyReportsAndClearsItsCount⟩

end Sys2Proof.Machine
end

section
/-! PROOFS. The rounds of a memory port (R225, R228 to R232): the winner, the grant of a round, and a preemption's cut. -/
namespace Sys2Proof.Machine

/-! ## The winner (R225) -/

theorem oldest_mem {l : List PortReq} {r : PortReq} (h : oldest l = some r) : r ∈ l := by
  revert h
  refine List.foldlRecOn (motive := fun m => m = some r → r ∈ l) l _ (fun h => by cases h) (fun m hm a ha => ?_)
  cases m with
  | none => exact fun h => Option.some.inj h ▸ ha
  | some b =>
    dsimp only
    split
    · exact fun h => Option.some.inj h ▸ ha
    · exact hm
theorem exists_oldest {l : List PortReq} (h : l ≠ []) : ∃ r, oldest l = some r := by
  obtain ⟨a, t, rfl⟩ := List.exists_cons_of_ne_nil h
  refine Option.isSome_iff_exists.mp
    (List.foldlRecOn (motive := fun m : Option PortReq => m.isSome = true) t _ rfl (fun m hm b _ => ?_))
  obtain ⟨c, rfl⟩ := Option.isSome_iff_exists.mp hm
  dsimp only
  split <;> rfl

/-- The highest class of the requests: the least number, 8 where there is none. -/
def highestClass (l : List PortReq) : Nat := l.foldl (fun m r => min m r.cls) 8
theorem highest_eq (l : List PortReq) : highest l = oldest (l.filter fun r => r.cls = highestClass l) := rfl
theorem highestClass_le {l : List PortReq} {x : PortReq} (h : x ∈ l) : highestClass l ≤ x.cls := by
  have key : ∀ (l : List PortReq) (m : Nat), l.foldl (fun m r => min m r.cls) m ≤ m ∧
      ∀ x ∈ l, l.foldl (fun m r => min m r.cls) m ≤ x.cls := by
    intro l
    induction l with
    | nil => simp
    | cons a l ih =>
      intro m
      obtain ⟨hm, hx⟩ := ih (min m a.cls)
      simp only [List.foldl_cons, List.forall_mem_cons]
      exact ⟨by omega, by omega, hx⟩
  exact (key l 8).2 x h
theorem exists_highestClass {l : List PortReq} (hc : ∀ x ∈ l, x.cls < 8) (hl : l ≠ []) : ∃ x ∈ l, x.cls = highestClass l := by
  have key : highestClass l = 8 ∨ ∃ x ∈ l, x.cls = highestClass l := by
    refine List.foldlRecOn (motive := fun m => m = 8 ∨ ∃ x ∈ l, x.cls = m) l _ (.inl rfl) (fun m hm a ha => ?_)
    obtain h | h := Nat.le_total m a.cls
    · rwa [Nat.min_eq_left h]
    · rw [Nat.min_eq_right h]
      exact .inr ⟨a, ha, rfl⟩
  obtain ⟨a, t, rfl⟩ := List.exists_cons_of_ne_nil hl
  have h8 := hc a (List.mem_cons_self ..)
  have hle : highestClass (a :: t) ≤ a.cls := highestClass_le (List.mem_cons_self ..)
  exact key.resolve_left (by omega)
theorem highest_mem {l : List PortReq} {r : PortReq} (h : highest l = some r) : r ∈ l :=
  (List.mem_filter.mp (oldest_mem (l := l.filter fun r => r.cls = highestClass l) h)).1
/-- Among requests there is one of the highest class. -/
theorem highest_spec {l : List PortReq} (hc : ∀ x ∈ l, x.cls < 8) (hl : l ≠ []) :
    ∃ r, highest l = some r ∧ r ∈ l ∧ ∀ x ∈ l, r.cls ≤ x.cls := by
  obtain ⟨x, hx, hxc⟩ := exists_highestClass hc hl
  obtain ⟨r, hr⟩ := exists_oldest (l := l.filter fun r => r.cls = highestClass l)
    (List.ne_nil_of_mem (List.mem_filter.mpr ⟨hx, decide_eq_true hxc⟩))
  have hrc : r.cls = highestClass l := of_decide_eq_true (List.mem_filter.mp (oldest_mem hr)).2
  exact ⟨r, hr, highest_mem hr, fun y hy => hrc ▸ highestClass_le hy⟩

theorem winner_of_slot_class {byte : Nat} {l : List PortReq} (hb : byte < 8) (h : ∃ x ∈ l, x.cls = byte) :
    ∃ r, winner byte l = some r ∧ r ∈ l ∧ r.cls = byte := by
  obtain ⟨x, hx, hxc⟩ := h
  obtain ⟨r, hr⟩ := exists_oldest (l := l.filter fun r => r.cls = byte)
    (List.ne_nil_of_mem (List.mem_filter.mpr ⟨hx, decide_eq_true hxc⟩))
  obtain ⟨hm, hc⟩ := List.mem_filter.mp (oldest_mem hr)
  exact ⟨r, by simp only [winner, if_pos hb, hr], hm, of_decide_eq_true hc⟩
theorem winner_of_no_slot_class {byte : Nat} {l : List PortReq} (h : ∀ x ∈ l, x.cls ≠ byte) : winner byte l = highest l := by
  have he : l.filter (fun r => r.cls = byte) = [] := List.filter_eq_nil_iff.mpr fun x hx => by simpa using h x hx
  unfold winner
  rw [he]
  exact ite_self _

theorem roundWinnerFollowsTheSlotByte : Claims.RoundWinnerFollowsTheSlotByte := by
  intro byte l hc hl
  by_cases h : ∃ x ∈ l, x.cls = byte
  · obtain ⟨x, hx, hxc⟩ := h
    obtain ⟨r, hr, hm, hrc⟩ := winner_of_slot_class (hxc ▸ hc x hx) ⟨x, hx, hxc⟩
    exact ⟨r, hr, hm, fun _ => hrc, fun hn => absurd hxc (hn x hx)⟩
  · have hn : ∀ x ∈ l, x.cls ≠ byte := fun x hx hxc => h ⟨x, hx, hxc⟩
    obtain ⟨r, hr, hm, hrc⟩ := highest_spec hc hl
    exact ⟨r, (winner_of_no_slot_class hn).trans hr, hm, fun hx => absurd hx h, fun _ => hrc⟩

/-! ## What presenting and parking leave of a channel (R230) -/

@[simp] theorem Port.chan_setChan (q : Port) (w : Bool) (c : PortChan) : (q.setChan w c).chan w = c := by cases w <;> rfl

/-- Of a port's channel only the queue may differ. -/
def QueueOnly (w : Bool) (q u : Port) : Prop := u.chan w = { q.chan w with queue := (u.chan w).queue }

theorem QueueOnly.refl (w : Bool) (q : Port) : QueueOnly w q q := rfl
theorem QueueOnly.of_chan {w : Bool} {q u : Port} {l : List PortReq} (h : u.chan w = { q.chan w with queue := l }) :
    QueueOnly w q u := by
  unfold QueueOnly
  rw [h]
theorem QueueOnly.trans {w : Bool} {q u v : Port} (h : QueueOnly w q u) (k : QueueOnly w u v) : QueueOnly w q v := by
  unfold QueueOnly at *
  rw [k, h]
theorem QueueOnly.ite {w : Bool} {q u v : Port} {p : Prop} [Decidable p] (h : QueueOnly w q u) (k : QueueOnly w q v) :
    QueueOnly w q (if p then u else v) := by
  split
  · exact h
  · exact k
theorem QueueOnly.foldl {α : Type} {w : Bool} {f : Port → α → Port} (hf : ∀ u a, QueueOnly w u (f u a)) (l : List α) (q : Port) :
    QueueOnly w q (l.foldl f q) :=
  List.foldlRecOn l f (.refl w q) fun u hu a _ => hu.trans (hf u a)

variable (q : Port) (w : Bool)

/-- A request is parked in its place, or nothing happens. -/
theorem Port.parkOne_chan (i : Nat) : q.parkOne w i = q ∨ ∃ r, (q.chan w).queue[i]? = some r ∧ r.onWires = true ∧
    (q.parkOne w i).chan w = { q.chan w with queue := (q.chan w).queue.set i { r with parked := true } } := by
  unfold Port.parkOne
  dsimp only
  split
  case h_1 r hr =>
    split
    case isTrue h => exact .inr ⟨r, hr, (Bool.and_eq_true_iff.mp h).1, q.chan_setChan w _⟩
    case isFalse => exact .inl rfl
  case h_2 => exact .inl rfl
theorem Port.parkOne_queueOnly (i : Nat) : QueueOnly w q (q.parkOne w i) := by
  obtain h | ⟨r, -, -, h⟩ := q.parkOne_chan w i
  · rw [h]
    exact .refl w q
  · exact .of_chan h
theorem Port.park_queueOnly : QueueOnly w q (q.park w) := QueueOnly.foldl (fun u i => u.parkOne_queueOnly w i) _ q
theorem Port.presentOne_queueOnly (now : Bool) (cycle i : Nat) : QueueOnly w q (q.presentOne w now cycle i) := by
  unfold Port.presentOne
  dsimp only
  split
  · split
    · exact .refl w q
    · have h (c : List PortReq) : QueueOnly w q (q.setChan w { q.chan w with queue := c }) := .of_chan (q.chan_setChan w _)
      exact .ite ((h _).trans (Port.parkOne_queueOnly _ w i)) (h _)
  · exact .refl w q
theorem Port.sample_queueOnly (now : Bool) (cycle : Nat) : QueueOnly w q (q.sample w now cycle) :=
  QueueOnly.foldl (fun u i => u.presentOne_queueOnly w now cycle i) _ q

/-- A parked request stays where others are parked. -/
theorem Port.mem_parkOne {x : PortReq} (i : Nat) (hp : x.parked = true) (h : x ∈ (q.chan w).queue) :
    x ∈ ((q.parkOne w i).chan w).queue := by
  obtain e | ⟨r, hr, hw, e⟩ := q.parkOne_chan w i
  · rwa [e]
  · have hne : x ≠ r := by
      rintro rfl
      simp [PortReq.onWires, hp] at hw
    obtain ⟨j, hj⟩ := List.mem_iff_getElem?.mp h
    have hij : i ≠ j := by
      rintro rfl
      exact hne (Option.some.inj (hj.symm.trans hr))
    rw [e]
    exact List.mem_of_getElem? ((List.getElem?_set_ne hij).trans hj)
theorem Port.mem_park {x : PortReq} (hp : x.parked = true) (h : x ∈ (q.chan w).queue) : x ∈ ((q.park w).chan w).queue :=
  List.foldlRecOn (motive := fun u => x ∈ (Port.chan u w).queue) _ _ h fun u hu i _ => u.mem_parkOne w i hp hu

/-! ## A grant (R225, R229, R230) -/

theorem Port.advanceSlot_chan (h : (q.chan w).slot + 1 < 512) :
    (q.advanceSlot w).chan w = { q.chan w with slot := (q.chan w).slot + 1 } := by
  unfold Port.advanceSlot
  rw [if_pos h, Port.chan_setChan]

variable (share d f : Nat) (r : PortReq) (named : List Nat)

/-- The grant that a request gets whose first beat falls in cycle f. -/
def Port.grantOf : Grant :=
  { cls := r.cls, locked := r.locked, requester := r.requester, firstBeat := f, lastBeat := f + r.beats.length - 1
    tags := pickTags (q.chan w).tagsUsed named r.beats.length, req := r }
theorem Port.grant_owner : ((q.grant w share d f r named).chan w).owner = some (q.grantOf w f r named) := by cases w <;> rfl
theorem Port.grant_slot : ((q.grant w share d f r named).chan w).slot = (q.chan w).slot := by cases w <;> rfl
theorem Port.grant_queue : ((q.grant w share d f r named).chan w).queue = (q.chan w).queue.erase r := by cases w <;> rfl

/-- A round on a channel without an owner: the slot pointer advances, and the winner owns the channel from two cycles on. -/
theorem Port.round_grants {q : Port} {w : Bool} {r : PortReq} (cycle : Nat) (ho : (q.chan w).owner = none)
    (hc : (q.chan w).cutAt ≤ cycle) (hs : (q.chan w).slot + 1 < 512)
    (hw : winner ((q.sample w false cycle).slotByte w) ((((q.sample w false cycle).advanceSlot w).chan w).queue.filter fun x =>
      x.presented.isSome && ((q.sample w false cycle).advanceSlot w).eligible w share cycle x) = some r) :
    ((q.round w share cycle named).chan w).slot = (q.chan w).slot + 1 ∧
      ((q.round w share cycle named).chan w).owner =
        some (((q.sample w false cycle).advanceSlot w).grantOf w (cycle + 2) r named) := by
  have hrun : (!(q.chan w).sampled cycle || decide (cycle < (q.chan w).cutAt)) = false := by
    simp [PortChan.sampled, ho, hc]
  have hsample : (q.sample w false cycle).chan w = _ := q.sample_queueOnly w false cycle
  have hslot : (((q.sample w false cycle).advanceSlot w).chan w).slot = (q.chan w).slot + 1 := by
    rw [Port.advanceSlot_chan _ w (by rw [hsample]; exact hs), hsample]
  unfold Port.round
  dsimp only
  rw [hrun, hw, ho]
  dsimp only
  rw [if_neg Bool.false_ne_true, Port.park_queueOnly _ w, Port.chan_setChan]
  dsimp only
  rw [Port.grant_slot, Port.grant_owner]
  exact ⟨hslot, rfl⟩

/-! ## A preemption (R231, R232) -/

/-- The port whose owner g is cut after its beat of the deciding cycle: its request waits again, parked. -/
def Port.cutOwner (q : Port) (w : Bool) (g : Grant) (cycle : Nat) : Port :=
  let issued := cycle + 2 - g.firstBeat
  let c := q.chan w
  let u := q.setChan w { c with
    out := (c.out.filter fun a => !(g.tags.drop issued).contains a.tag).map fun a =>
      if (g.tags.take issued).contains a.tag then { a with discard := true } else a
    queue := c.queue ++ [{ g.req with parked := true }], cutAt := cycle + 1 }
  { u with waits := bumpWrap u.waits g.requester 1 }
theorem Port.cutOwner_queue (g : Grant) (cycle : Nat) :
    ((q.cutOwner w g cycle).chan w).queue = (q.chan w).queue ++ [{ g.req with parked := true }] := by cases w <;> rfl

/-- A preemption round that finds an unlocked owner in the midst of its beats and a request to take its place: that request owns
the channel, and the owner's stands parked in the queue, behind the others. -/
theorem Port.preempt_cuts {q u : Port} {w : Bool} {g : Grant} {r : PortReq} (classes cycle : Nat)
    (hu : (q.abandon w cycle).sample w true cycle = u) (ho : (u.chan w).owner = some g) (hl : g.locked = false)
    (hf : g.firstBeat ≤ cycle + 1) (hb : cycle + 1 < g.lastBeat) (hp : u.parkedCount < 128)
    (hr : highest ((u.chan w).queue.filter fun x => x.presented.isSome && bitOf classes x.cls && decide (x.cls < g.cls) &&
      u.eligible w share cycle x) = some r) :
    ((q.preempt w classes share cycle named).chan w).owner = some ((u.cutOwner w g cycle).grantOf w (cycle + 2) r named) ∧
      { g.req with parked := true } ∈ ((q.preempt w classes share cycle named).chan w).queue := by
  have hcut : ¬ (g.locked = true ∨ cycle + 1 < g.firstBeat ∨ g.lastBeat ≤ cycle + 1 ∨ 128 ≤ u.parkedCount) := by
    rw [hl]
    simp only [Bool.false_eq_true, false_or]
    omega
  have he : q.preempt w classes share cycle named =
      ((u.cutOwner w g cycle).grant w share (cycle + 1) (cycle + 2) r named).park w := by
    unfold Port.preempt
    dsimp only
    rw [hu, ho]
    dsimp only
    rw [if_neg hcut, hr, ← ho]
    rfl
  have hq : r ∈ (u.chan w).queue := (List.mem_filter.mp (highest_mem hr)).1
  rw [he]
  refine ⟨?_, Port.mem_park _ w rfl ?_⟩
  · rw [Port.park_queueOnly _ w]
    exact Port.grant_owner ..
  · rw [Port.grant_queue, Port.cutOwner_queue, List.erase_append_left _ hq]
    exact List.mem_append_right _ (List.mem_singleton_self _)

/-! ## The rounds as commands -/

variable (s : State) (p : Nat)

/-- Marking what has begun leaves all of a channel but its queue. -/
theorem State.roundPort_queueOnly : QueueOnly w (s.port p) (s.roundPort p) := by cases w <;> rfl
theorem State.stallOp_ports (c : Nat) (x : WaitOn) : (s.stallOp c x).ports = s.ports := by
  unfold State.stallOp
  split <;> rfl
/-- The channels that a closing domain stalls: neither memory nor the ports change. -/
theorem State.domainStall_keeps : (s.domainStall p).mem = s.mem ∧ (s.domainStall p).ports = s.ports := by
  unfold State.domainStall
  split
  · exact ⟨rfl, rfl⟩
  · refine List.foldlRecOn (motive := fun t : State => t.mem = s.mem ∧ t.ports = s.ports) _ _ ⟨rfl, rfl⟩ (fun t ht e _ => ?_)
    obtain ⟨hm, hp⟩ := ht
    have stall (c : Nat) (x : WaitOn) : (t.stallOp c x).mem = s.mem ∧ (t.stallOp c x).ports = s.ports :=
      ⟨((Quiet.refl t).stallOp c x).mem.trans hm, (t.stallOp_ports c x).trans hp⟩
    dsimp only
    split
    · split
      · exact stall _ _
      · exact ⟨hm, hp⟩
    · split <;> exact ⟨hm, hp⟩

theorem State.arbitrate_eq (cycle : Nat) (tags : List Nat) (hp : p < 8) (hu : (s.island (portIsland p)).unreachable = false) :
    s.arbitrate p w cycle tags =
      (s.setPort p { (s.roundPort p).round w s.throttleShare cycle tags with qreq := (s.port p).qreq }).domainStall p := by
  unfold State.arbitrate
  rw [if_neg (by omega), if_neg (by rw [hu]; exact Bool.false_ne_true)]
theorem State.preemption_eq (cycle : Nat) (tags : List Nat) (hp : p < 8) (hu : (s.island (portIsland p)).unreachable = false) :
    s.preemption p w cycle tags = s.setPort p
      { (s.roundPort p).preempt w (s.obj 0x4030 0) s.throttleShare cycle tags with qreq := (s.port p).qreq } := by
  unfold State.preemption
  rw [if_neg (by rw [hu]; simp only [Bool.false_eq_true, or_false]; omega)]

theorem arbitrationGrantsTheWinner : Claims.ArbitrationGrantsTheWinner := by
  intro p cycle w tags s r hp hu ho hc hs hw
  have hq : (s.roundPort p).chan w = _ := s.roundPort_queueOnly w p
  obtain ⟨hslot, howner⟩ := Port.round_grants s.throttleShare tags cycle (by rw [hq]; exact ho) (by rw [hq]; exact hc)
    (by rw [hq]; exact hs) hw
  have he : exec (.arbitrationRound p w cycle tags) s = .next (s.arbitrate p w cycle tags) := rfl
  rw [he, State.arbitrate_eq w s p cycle tags hp hu]
  generalize hx : ({ (s.roundPort p).round w s.throttleShare cycle tags with qreq := (s.port p).qreq } : Port) = x
  have hxc : x.chan w = ((s.roundPort p).round w s.throttleShare cycle tags).chan w := hx ▸ rfl
  obtain ⟨hm, hports⟩ := (s.setPort p x).domainStall_keeps p
  have hx' : ((s.setPort p x).domainStall p).port p = x := (State.port_congr hports p).trans (s.port_setPort_self p x)
  refine ⟨_, rfl, hm, ?_⟩
  rw [hx', hxc, hslot, howner, hq]
  exact ⟨hx ▸ rfl, rfl, rfl⟩

theorem preemptionCutsALowerClass : Claims.PreemptionCutsALowerClass := by
  intro p cycle w tags s g r hp hu hl hf hb ⟨ho, hpark, hr⟩
  have hcls : r.cls < g.cls := by
    have h := (List.mem_filter.mp (highest_mem hr)).2
    simp only [Bool.and_eq_true, decide_eq_true_eq] at h
    obtain ⟨⟨-, h⟩, -⟩ := h
    exact h
  obtain ⟨howner, hmem⟩ := Port.preempt_cuts s.throttleShare tags (s.obj 0x4030 0) cycle rfl ho hl hf hb hpark hr
  have he : exec (.preemptionRound p w cycle tags) s = .next (s.preemption p w cycle tags) := rfl
  rw [he, State.preemption_eq w s p cycle tags hp hu]
  refine ⟨_, rfl, rfl, hcls, ?_⟩
  rw [State.port_setPort_self]
  exact ⟨congrArg (Option.map fun h : Grant => (h.req, h.cls)) howner, hmem⟩

/-- Settles O22: presenting and parking change a channel's queue alone, so a round finds the channel's owner and slot as they
were; a grant takes one request equal to the winner's off the queue, and the one that is cut stands behind it, parked. -/
theorem roundsGrantAndPreempt : Obligations.RoundsGrantAndPreempt :=
  ⟨roundWinnerFollowsTheSlotByte, arbitrationGrantsTheWinner, preemptionCutsALowerClass⟩

end Sys2Proof.Machine
end

section
/-! PROOFS. READ, WRITE and the segment services on the dictionary's objects (R337, R376, R377, R381, R382, R396). -/
namespace Sys2Proof.Machine

variable {s : State} {r : Request}

theorem serves_of_asks {n : Nat} (h : Claims.asks s r n) : Request.serves n r = true := by
  simp [Request.serves, service_of_asks h]
theorem answerJobs_of_asks {n : Nat} (h : Claims.asks s r n) : s.pool.jobs.contains .answer = false := by
  obtain ⟨-, -, hp, -⟩ := h
  exact hp

/-! ## Reads (R337, R376, R382, R437) -/

section
variable {o : ObjDef}

theorem exec_read_asks (h : Claims.asks s r 1) : exec .read s = .next (s.readRequest r) :=
  congrArg Host.Outcome.next (s.serveFor_read r _ h (serves_of_asks h))
theorem exec_islandStateRead_asks (h : Claims.asks s r 1) (hi : r.index = 0x3000) :
    exec .islandStateRead s = .next (s.readRequest r) :=
  congrArg Host.Outcome.next (s.serveFor_read r _ h (by simp [service_of_asks h, hi]))

/-- A register of a slot that the dictionary does not own is not read (R437). -/
theorem State.readRequest_refused (hs : isSlotReg r.index r.sub = true) (ho : s.slotOwner (r.index - 0x8000) ≠ 1) :
    s.readRequest r = s.refuseRequest r 0x50000001 := if_pos ⟨hs, ho⟩
theorem State.readRequest_answers (hr : objRow r.index r.sub = some o)
    (hs : isSlotReg r.index r.sub = true → s.slotOwner (r.index - 0x8000) = 1) :
    s.readRequest r = (s.readValue o r.index r.sub).1.answerRequest r (boolBit (s.readValue o r.index r.sub).2.2 3)
      (s.readValue o r.index r.sub).2.1 := by
  unfold State.readRequest
  rw [if_neg (fun h => h.2 (hs h.1)), hr]

variable (s) {i sub : Nat}

theorem State.readValue_str (ht : o.type = .str) : s.readValue o i sub = (s, strBytes i, false) := if_pos ht
theorem State.readValue_islandState (hs : sub ≠ 0) (ht : o.type ≠ .str) : s.readValue o 0x3000 sub =
    (s.setIsland (sub - 1) { s.island (sub - 1) with fault := false }, leBytes 1 (s.readObj 0x3000 sub), false) := by
  unfold State.readValue
  rw [if_neg ht, if_neg (by decide), if_pos ⟨rfl, hs⟩]
theorem State.readValue_staged (hc : o.cls = .rws ∨ o.cls = .rwc) (ht : o.type ≠ .str) (hn : i ≠ 0x5101)
    (hi : ¬ (i = 0x3000 ∧ sub ≠ 0)) : s.readValue o i sub =
      (s, leBytes o.type.size (s.objNext i sub), decide (s.objNext i sub ≠ s.obj i sub)) := by
  unfold State.readValue
  rw [if_neg ht, if_neg hn, if_neg hi, if_pos hc]
theorem State.readValue_active (hc : o.cls = .ro ∨ o.cls = .rw) (ht : o.type ≠ .str) (hn : i ≠ 0x5101)
    (hi : ¬ (i = 0x3000 ∧ sub ≠ 0)) : s.readValue o i sub = (s, leBytes o.type.size (s.readObj i sub), false) := by
  have hc' : ¬ (o.cls = .rws ∨ o.cls = .rwc) := by
    obtain h | h := hc <;> simp [h]
  unfold State.readValue
  rw [if_neg ht, if_neg hn, if_neg hi, if_neg hc']

end

theorem boolBit_decide (p : Prop) [Decidable p] {i n : Nat} (h : 2 ^ i = n) : boolBit (decide p) i = if p then n else 0 := by
  simp only [boolBit, decide_eq_true_eq, h]

theorem readsAnswerTheValue : Claims.ReadsAnswerTheValue := by
  intro s r o h hr
  refine ⟨fun hs ho => ?_, fun hs => ⟨fun hc ht hn hi => ?_, fun hc ht hn hi => ?_, fun ht => ?_⟩, fun hi hsub _ ht => ?_⟩
  · rw [exec_read_asks h, State.readRequest_refused hs ho]
  · rw [exec_read_asks h, State.readRequest_answers hr hs, State.readValue_active s hc ht hn hi]
    rfl
  · rw [exec_read_asks h, State.readRequest_answers hr hs, State.readValue_staged s hc ht hn (fun e => hi e.1)]
    dsimp only
    rw [boolBit_decide _ (show 2 ^ 3 = 8 from rfl), ite_not]
  · rw [exec_read_asks h, State.readRequest_answers hr hs, State.readValue_str s ht]
    rfl
  · have hs : isSlotReg r.index r.sub = true → s.slotOwner (r.index - 0x8000) = 1 := by simp [isSlotReg, hi]
    rw [exec_islandStateRead_asks h hi, State.readRequest_answers hr hs, hi, State.readValue_islandState s hsub ht]
    rfl

/-! ## Writes (R283, R381, R382) -/

/-- An object without a behaviour of its own only holds its value. -/
theorem State.writeObject_plain (s : State) {i sub : Nat} (v : Nat) (hi : actingObjects.contains i = false)
    (hs : isSlotReg i sub = false) : s.writeObject i sub v = s.writePlain i sub v := by
  unfold State.writeObject
  split
  case h_17 => exact if_neg (by rw [hs]; exact Bool.false_ne_true)
  all_goals exact absurd hi (by decide)
theorem plainWrite_iff {r : Request} : r.plainWrite = true ↔
    r.service = 2 ∧ actingObjects.contains r.index = false ∧ isSlotReg r.index r.sub = false := by
  simp only [Request.plainWrite, Bool.and_eq_true, decide_eq_true_eq, Bool.not_eq_true', and_assoc]
/-- WRITE and OBJECT_WRITE serve a plain write alike. -/
theorem exec_plainWrite_asks (h : Claims.asks s r 2) (hp : r.plainWrite = true) :
    exec .objectWrite s = .next (s.reply r (s.writePlain r.index r.sub r.value)) ∧ exec .write s = exec .objectWrite s := by
  have hserves : Request.serves 2 r = true := serves_of_asks h
  obtain ⟨hw, ha, -, hs, hf, ho⟩ := h
  obtain ⟨-, hi, hsl⟩ := plainWrite_iff.mp hp
  have hserve : s.serve r = s.reply r (s.writePlain r.index r.sub r.value) := by
    rw [s.serve_write r ha hs hf ho, s.writeObject_plain _ hi hsl]
  have he : s.serveFor Request.plainWrite = s.serve r := s.serveFor_front _ r hw hp
  have hwr : s.serveFor (Request.serves 2) = s.serve r := s.serveFor_front _ r hw hserves
  exact ⟨congrArg Host.Outcome.next (he.trans hserve), congrArg Host.Outcome.next (hwr.trans he.symm)⟩

variable (s) {i sub : Nat} {o : ObjDef}

theorem State.writePlain_staged (v : Nat) (ho : objDef i sub = some o) (hc : o.cls = .rws ∨ o.cls = .rwc) :
    s.writePlain i sub v = .ok (s.stage i sub (heldBits i v)) := by
  unfold State.writePlain
  rw [ho]
  exact if_pos hc
theorem State.writePlain_coming (v : Nat) (ho : objDef i sub = some o) (hc : o.cls = .rw) : s.writePlain i sub v =
    .later (s.comingDue i sub (heldBits i v)).syncConfig (some (i, sub, heldBits i v)) .none := by
  unfold State.writePlain
  rw [ho]
  exact if_neg (by simp [hc])
theorem State.syncConfig_unjournaled (h : s.journaled = false) : s.syncConfig = s :=
  if_neg (by rw [h]; exact Bool.false_ne_true)

/-- An act that leaves JRN and POOL no write more to do is answered in the same step. -/
theorem State.reply_ok_answered (t : State) (r : Request) (hu : t.upkeepCount ≤ s.upkeepCount)
    (hp : t.pool.jobs.contains .answer = false) : s.reply r (.ok t) = Claims.answered t r := by
  unfold State.reply State.effected
  exact if_neg (by rw [hp]; simp [hu])

theorem State.dueNow_plain (v : Nat) (hi : actingObjects.contains i = false) (hs : isSlotReg i sub = false) :
    s.dueNow (some (i, sub, v)) = s.setObj i sub v := by
  have ne (k : Nat) (hk : actingObjects.contains k = true) : i ≠ k := by
    rintro rfl
    rw [hk] at hi
    cases hi
  simp only [State.dueNow, State.inForce, hs, if_neg (ne 0x2001 rfl), if_neg (ne 0xC000 rfl), if_neg (ne 0x6051 rfl),
    Bool.false_eq_true, if_false]
/-- The response of a plain write brings its value into force (R381). -/
theorem State.returned_value (r : Request) (v : Nat) (hi : actingObjects.contains i = false) (hs : isSlotReg i sub = false) :
    s.returned r (some (i, sub, v)) .none = Claims.answered (s.setObj i sub v) r := by
  unfold State.returned
  rw [State.dueNow_plain _ v hi hs]
  rfl
theorem obj_answered (t : State) (r : Request) (i sub : Nat) : (Claims.answered t r).obj i sub = t.obj i sub :=
  State.obj_congr (by rw [Claims.answered, (Answered.answerRequest _ r 0 []).eq]) i sub

/-- What the configuration image's writes leave of a value that is to come. -/
theorem State.syncConfig_comingDue (v : Nat) : ((s.comingDue i sub v).syncConfig).ctl.waiting = s.ctl.waiting ∧
    (s.comingDue i sub v).syncConfig.dict = s.dict := by
  rw [State.syncConfig_eq]
  exact ⟨rfl, rfl⟩
/-- The reply to a write of an RW object: the value is in force with its response, or is to come with it (R283, R381). -/
theorem State.reply_coming (r : Request) (v : Nat) (hi : actingObjects.contains i = false) (hs : isSlotReg i sub = false)
    (t : State) (ht : s.reply r (.later (s.comingDue i sub v).syncConfig (some (i, sub, v)) .none) = t) :
    t.obj i sub = v ∨ (Claims.comes s t i sub v ∧ t.obj i sub = s.obj i sub) := by
  obtain ⟨hw, hd⟩ := s.syncConfig_comingDue (i := i) (sub := sub) v
  subst ht
  obtain h | h := s.reply_later (s.comingDue i sub v).syncConfig r (some (i, sub, v)) .none
  · rw [h]
    exact .inr ⟨⟨rfl, rfl, hw⟩, State.obj_congr hd i sub⟩
  · rw [h, State.returned_value _ r v hi hs, obj_answered]
    exact .inl (State.obj_setObj_self ..)

theorem writesAreStagedOrInForce : Claims.WritesAreStagedOrInForce := by
  intro s r o h hp ho
  obtain ⟨hobj, hwr⟩ := exec_plainWrite_asks h hp
  obtain ⟨-, hi, hs⟩ := plainWrite_iff.mp hp
  have hjobs := answerJobs_of_asks h
  refine ⟨fun hc => ⟨?_, hwr⟩, fun hc hj => ⟨?_, hwr⟩, fun hc _ => ⟨_, hobj, hwr.trans hobj, ?_⟩⟩
  · rw [hobj, s.writePlain_staged _ ho hc, s.reply_ok_answered (s.stage ..) r (Nat.le_refl _) hjobs]
  · rw [hobj, s.writePlain_coming _ ho hc, State.syncConfig_unjournaled (s.comingDue ..) hj,
      s.reply_later_returned (s.comingDue ..) r _ _ rfl hjobs, State.returned_value _ r _ hi hs]
    rfl
  · rw [s.writePlain_coming _ ho hc]
    exact s.reply_coming r _ hi hs _ rfl

/-! ## Segments (R225, R377, R396) -/

theorem State.serveFor_segRead (r : Request) (named : Request → Bool) (h : Claims.asks s r 3) (hn : named r = true) :
    s.serveFor named = s.segReadRequest r := by
  obtain ⟨hw, ha, -, hs, hf, ho⟩ := h
  have hr := r.asWrite_self (by omega)
  rw [s.serveFor_front named r hw hn]
  unfold State.serve
  simp only [ha, hf, hr, ho, hs]
  rfl
/-- The answer to a SEG-READ from the bytes of t. -/
def State.answerSegment (t : State) (r : Request) : State :=
  t.answerRequest r (if (t.domain r.index r.sub).length ≤ r.offset + r.length then 2 else 0)
    (((t.domain r.index r.sub).drop r.offset).take r.length)
theorem State.segReadRequest_eq (r : Request) : s.segReadRequest r =
    (if r.index = 0xA800 ∧ r.first = true ∧ r.offset = 0 then s.takeSnapshot else s).answerSegment r := by
  unfold State.segReadRequest State.answerSegment
  dsimp only
  rw [boolBit_decide _ (show 2 ^ 1 = 2 from rfl)]

/-- An entry's value, where it is not the default, is listed. -/
theorem Tab.mem_of_get_ne {α : Type} {d : Nat → α} {t : Tab α} {k : Nat} (h : Tab.get d t k ≠ d k) : (k, Tab.get d t k) ∈ t := by
  induction t with
  | nil => exact absurd rfl h
  | cons e l ih =>
    obtain ⟨j, a⟩ := e
    simp only [Tab.get] at h ⊢
    split
    case isTrue hj => exact hj ▸ List.mem_cons_self ..
    case isFalse hj =>
      rw [if_neg hj] at h
      exact List.mem_cons_of_mem _ (ih h)
theorem Tab.mem_put {α : Type} [DecidableEq α] {d : Nat → α} {t : Tab α} {k : Nat} {a : α} {e : Nat × α}
    (h : e ∈ Tab.put d t k a) : e = (k, a) ∨ e ∈ t := by
  unfold Tab.put at h
  split at h
  · exact .inr (Tab.mem_erase h)
  · exact Tab.mem_insert h
/-- A port set anew with no access of an owner that it did not have. -/
theorem State.portHas_of_setPort {p : Nat} {x : Port} {f : Owner → Bool} (hx : x.has f = (s.port p).has f)
    (h : (s.setPort p x).portHas f = true) : s.portHas f = true := by
  obtain ⟨e, he, hf⟩ := List.any_eq_true.mp h
  refine List.any_eq_true.mpr ?_
  obtain rfl | he := Tab.mem_put (d := fun _ => {}) (t := s.ports) he
  · have hp : (s.port p).has f = true := hx ▸ hf
    refine ⟨(p, s.port p), Tab.mem_of_get_ne fun hd => ?_, hp⟩
    have hempty : ({} : Port).has f = true := hd ▸ hp
    cases hempty
  · exact ⟨e, he, hf⟩
theorem State.upkeepCount_setPort_le {p : Nat} {x : Port}
    (hx : x.has (fun o => o = .upkeep) = (s.port p).has fun o => o = .upkeep) :
    (s.setPort p x).upkeepCount ≤ s.upkeepCount := by
  have hout : (s.setPort p x).upkeepOut = true → s.upkeepOut = true := by
    simp only [State.upkeepOut, State.accessFor, Bool.or_eq_true, or_assoc]
    exact Or.imp_left (s.portHas_of_setPort hx)
  unfold State.upkeepCount
  refine Nat.add_le_add_left ?_ _
  split
  case isTrue h => exact Nat.le_of_eq (if_pos (hout h)).symm
  case isFalse => exact Nat.zero_le _

theorem State.writeSegment_typeCase (r : Request) (hi : r.index = 0x4040) (hc : (s.port (r.sub - 1)).casePending = false) :
    s.writeSegment r = .ok (s.setPort (r.sub - 1) { s.port (r.sub - 1) with
      caseEdit := Tab.putAll slotByteDefault (s.port (r.sub - 1)).caseEdit (placed r.offset r.data) }).syncConfig := by
  simp only [State.writeSegment, hi]
  exact if_neg (by rw [hc]; exact Bool.false_ne_true)

theorem segmentsReadAndWriteTheirObject : Claims.SegmentsReadAndWriteTheirObject := by
  intro s r
  refine ⟨fun h hi => ?_, fun h hi hf h0 => ?_, fun h hi hc hj => ?_⟩
  · have he : exec .segRead s = .next (s.segReadRequest r) :=
      congrArg Host.Outcome.next (s.serveFor_segRead r _ h (serves_of_asks h))
    rw [he, s.segReadRequest_eq r, if_neg fun e => hi e.1]
    rfl
  · have he : exec .waitSnapshotRead s = .next (s.segReadRequest r) :=
      congrArg Host.Outcome.next (s.serveFor_segRead r _ h (by simp [service_of_asks h, hi]))
    rw [he, s.segReadRequest_eq r, if_pos ⟨hi, hf, h0⟩]
    have ha : Answered s.takeSnapshot (s.takeSnapshot.answerSegment r) := .answerRequest ..
    exact ⟨_, rfl, ha.sameDue.mem, by rw [ha.eq]⟩
  · have he : exec .segWrite s = .next (s.reply r (s.writeSegment r)) :=
      congrArg Host.Outcome.next (s.serveFor_segWrite r _ h (serves_of_asks h))
    rw [he, s.writeSegment_typeCase r hi hc, State.syncConfig_unjournaled (s.setPort ..) hj]
    exact congrArg _ (s.reply_ok_answered _ r (s.upkeepCount_setPort_le rfl) (answerJobs_of_asks h))

/-- Settles O37: a read has one equation for each kind of object; an act after which JRN and POOL have no write more to do is
answered in the same step, and else its value is to come with its response. -/
theorem readsAndWritesServeTheDictionary : Obligations.ReadsAndWritesServeTheDictionary :=
  ⟨readsAnswerTheValue, writesAreStagedOrInForce, segmentsReadAndWriteTheirObject⟩

end Sys2Proof.Machine
end

section
/-! PROOFS. The journal's records (R274, R275, R291): what the scan reads back of the 64 bytes that were written. -/
namespace Sys2Proof.Machine

/-! ## Fields of a string of fields -/

theorem fieldAt_append_right (p q : List Byte) (o n : Nat) : fieldAt (p ++ q) (p.length + o) n = fieldAt q o n := by
  simp only [fieldAt, ← List.drop_drop, List.drop_left]
theorem fieldAt_leBytes (n v : Nat) : fieldAt (leBytes n v) 0 n = v % 256 ^ n := by simp [fieldAt, List.take_of_length_le]
theorem fieldAt_leBytes_append (n v : Nat) (l : List Byte) : fieldAt (leBytes n v ++ l) 0 n = v % 256 ^ n := by
  rw [fieldAt_append_left _ _ _ _ (by simp), fieldAt_leBytes]
theorem fieldAt_leBytes_skip (n v o m : Nat) (l : List Byte) (h : n ≤ o) :
    fieldAt (leBytes n v ++ l) o m = fieldAt l (o - n) m := by
  have hs := fieldAt_append_right (leBytes n v) l (o - n) m
  rwa [leBytes_length, Nat.add_sub_cancel' h] at hs

/-! ## The parts of a record: 16 bytes that all kinds share, 40 of its kind, 4 of zeros, and the CRC (R274) -/

variable (r : Record)

/-- The first 16 bytes of a record. -/
def Record.header : List Byte :=
  leBytes 1 r.kind.code ++ (leBytes 1 (boolBit r.carried 0 + boolBit r.void 1) ++ (leBytes 2 r.node ++
    (leBytes 4 r.epoch ++ leBytes 8 r.pos)))
/-- The bytes that a record's CRC covers. -/
def Record.covered : List Byte := r.header ++ (r.body ++ leBytes 4 0)

theorem Record.bytes_eq : r.bytes = r.covered ++ leBytes 4 (crc32c r.covered) := by
  simp only [Record.bytes, Record.covered, Record.header, List.append_assoc]
@[simp] theorem Record.header_length : r.header.length = 16 := by simp [Record.header]
@[simp] theorem Record.body_length : r.body.length = 40 := by
  cases hk : r.kind <;> simp [Record.body, hk]
@[simp] theorem Record.covered_length : r.covered.length = 60 := by simp [Record.covered]
theorem Record.bytes_length : r.bytes.length = 64 := by simp [r.bytes_eq]

theorem Record.crc_checks : fieldAt r.bytes 0x3C 4 = crc32c (r.bytes.take 0x3C) := by
  have hc := Machine.crc_checks r.covered
  rw [r.covered_length] at hc
  rw [r.bytes_eq, hc, ← r.covered_length, List.take_left]

theorem Record.header_field (o n : Nat) (h : o + n ≤ 16) : fieldAt r.bytes o n = fieldAt r.header o n := by
  rw [r.bytes_eq, Record.covered, List.append_assoc, fieldAt_append_left _ _ _ _ (by simpa using h)]
theorem Record.drop_header : r.bytes.drop 16 = r.body ++ (leBytes 4 0 ++ leBytes 4 (crc32c r.covered)) := by
  rw [r.bytes_eq, Record.covered, List.append_assoc, ← r.header_length, List.drop_left, List.append_assoc]
theorem Record.body_field (o n : Nat) (ho : 16 ≤ o) (h : o + n ≤ 56) : fieldAt r.bytes o n = fieldAt r.body (o - 16) n := by
  rw [← fieldAt_append_left r.body (leBytes 4 0 ++ leBytes 4 (crc32c r.covered)) _ n (by simp; omega), ← r.drop_header,
    fieldAt, fieldAt, List.drop_drop, Nat.add_sub_cancel' ho]

/-- The fields that all kinds share read back. -/
theorem Record.header_reads (hn : r.node < 4096) (he : r.epoch < 4294967296) (hp : r.pos < 18446744073709551616) :
    fieldAt r.bytes 0 1 = r.kind.code ∧ bitOf (fieldAt r.bytes 1 1) 0 = r.carried ∧ bitOf (fieldAt r.bytes 1 1) 1 = r.void ∧
    fieldAt r.bytes 2 2 % 4096 = r.node ∧ fieldAt r.bytes 4 4 = r.epoch ∧ fieldAt r.bytes 8 8 = r.pos := by
  have hk : r.kind.code < 256 := by cases r.kind <;> decide
  have hf : ∀ a b : Bool, boolBit a 0 + boolBit b 1 < 256 ∧ bitOf (boolBit a 0 + boolBit b 1) 0 = a ∧
    bitOf (boolBit a 0 + boolBit b 1) 1 = b := by decide
  obtain ⟨hl, hc, hv⟩ := hf r.carried r.void
  have hm : r.node % 65536 % 4096 = r.node := by omega
  simp [r.header_field, Record.header, fieldAt_leBytes, fieldAt_leBytes_append, fieldAt_leBytes_skip, Nat.mod_eq_of_lt, *]

/-- The status area of a COMPLETE record reads back. -/
theorem Record.statusArea_reads (hk : r.kind = .complete) (hs : r.statusArea.length = 16) :
    (r.bytes.drop 0x20).take 16 = r.statusArea := by
  have hb : r.body = (leBytes 4 r.ctx ++ leBytes 4 r.slotIndex ++ leBytes 8 r.seq) ++ (r.statusArea ++ leBytes 8 0) := by
    simp [Record.body, hk, hs]
  have hl : (leBytes 4 r.ctx ++ leBytes 4 r.slotIndex ++ leBytes 8 r.seq).length = 16 := by simp
  rw [show 0x20 = 16 + 16 from rfl, ← List.drop_drop, r.drop_header, hb, List.append_assoc, List.drop_left' hl, List.append_assoc,
    List.take_left' hs]

/-- The scan reads back the header, and of the body the fields that its kind has; the fields of other kinds are unused (R275, R291). -/
theorem recordOf_bytes (h : Claims.recordFits r) : recordOf r.bytes = some r := by
  obtain ⟨hnode, hepoch, hpos, hctx, hslot, hseq, haddr, hord, hold, hvalue, hgroup, hcounter, hop, hblock, hgalley, hentries, hlow,
    hhigh, hunits, hevent, hmode, hcause, hprev, hend, htwin, hr, hs⟩ := h
  have hc18 : r.ctx % 4294967296 % 262144 = r.ctx := by omega
  have hg17 : r.galley % 4294967296 % 131072 = r.galley := by omega
  have ht12 : r.twin % 65536 % 4096 = r.twin := by omega
  simp only [Nat.reducePow] at *
  obtain ⟨h1, h2, h3, h4, h5, h6⟩ := r.header_reads hnode hepoch hpos
  rw [recordOf, if_neg fun h => h r.crc_checks, h1, h2, h3, h4, h5, h6]
  cases hk : r.kind <;> rw [hk] at hr <;> refine (congrArg some ?_).trans (congrArg some hr.symm) <;> clear hr
  case complete =>
    have ha := r.statusArea_reads hk (hs hk)
    simp [r.body_field, Record.body, fieldAt_leBytes_append, fieldAt_leBytes_skip, Nat.mod_eq_of_lt, *]
  all_goals
    simp [r.body_field, Record.body, fieldAt_leBytes, fieldAt_leBytes_append, fieldAt_leBytes_skip, Nat.mod_eq_of_lt, *]

/-- Settles O32: the CRC checks, and each field stands where the scan looks for it, behind fields of fixed length. -/
theorem journalRecordsReadBack : Obligations.JournalRecordsReadBack :=
  fun r h => ⟨recordOf_bytes r h, r.bytes_length⟩

end Sys2Proof.Machine
end

section
/-! PROOFS. The compatibility slots (R436 to R448): writes by the window and by the dictionary, and the ends of a run. -/
namespace Sys2Proof.Machine

variable (s : State) (k : Nat)

/-! ## A write of a slot's register (R442 to R444) -/

/-- The fields of a value of CTRL land in the shadow. -/
def State.ctrlLanded (v : Nat) : State := s.setSlot k ((s.slot k).writeReg 0x18 v)
@[simp] theorem State.ctrlLanded_slot (v : Nat) : (s.ctrlLanded k v).slot k = { s.slot k with ctrl := ctrlFields v } :=
  s.slot_setSlot_self k _
theorem State.ctrlLanded_canStart (v : Nat) : (s.ctrlLanded k v).canStart k = s.canStart k := by
  simp only [State.canStart, State.ctrlLanded_slot]
  rfl

variable {s k} {v : Nat}

/-- A write of CTRL: its fields land, then ABORT acts, then START. -/
theorem State.writeSlot_ctrl : s.writeSlot k 0x18 v =
    let u := if abortBit v then (s.ctrlLanded k v).abortRun k else s.ctrlLanded k v
    if startBit v then
      if !decide ((s.slot k).state = 1) ∧ u.canStart k then u.startRun k else u.setSlot k { u.slot k with startIgnored := true }
    else u := rfl
theorem State.writeSlot_plain {reg : Nat} (h : reg = 0x18 → startBit v = false ∧ abortBit v = false) :
    s.writeSlot k reg v = s.setSlot k ((s.slot k).writeReg reg v) := by
  by_cases hr : reg = 0x18
  · subst hr
    obtain ⟨hb, ha⟩ := h rfl
    rw [State.writeSlot_ctrl, hb, ha]
    rfl
  · exact if_neg hr
theorem State.abortRun_idle (h : (s.slot k).state ≠ 1) : s.abortRun k = s := if_neg h
theorem State.abortRun_slot (h : (s.slot k).state = 1) :
    (s.abortRun k).slot k = { s.slot k with state := 3, stalled := none } := by
  rw [State.abortRun, if_pos h]
  exact State.slot_setSlot_self ..
theorem State.canStart_state (h : s.canStart k = true) : (s.slot k).state ≠ 1 := by
  intro h1
  simp [State.canStart, h1] at h
theorem State.writeSlot_start (hb : startBit v = true) (hc : s.canStart k = true) :
    s.writeSlot k 0x18 v = (s.ctrlLanded k v).startRun k := by
  have h1 := State.canStart_state hc
  have ha : (s.ctrlLanded k v).abortRun k = s.ctrlLanded k v := State.abortRun_idle (by simpa using h1)
  rw [State.writeSlot_ctrl, ha, ite_self]
  simp [hb, h1, s.ctrlLanded_canStart k v, hc]
theorem State.writeSlot_ignored (hb : startBit v = true) (ha : abortBit v = false) (hc : s.canStart k = false) :
    s.writeSlot k 0x18 v =
      (s.ctrlLanded k v).setSlot k { s.slot k with ctrl := ctrlFields v, startIgnored := true } := by
  simp [State.writeSlot_ctrl, hb, ha, s.ctrlLanded_canStart k v, hc]
theorem State.writeSlot_abort (hb : startBit v = false) (ha : abortBit v = true) :
    s.writeSlot k 0x18 v = (s.ctrlLanded k v).abortRun k := by
  simp [State.writeSlot_ctrl, hb, ha]

/-- A run that begins takes its working copy from the shadow (R442, R445). -/
theorem State.startRun_slot : ((s.startRun k).slot k).state = 1 ∧ ((s.startRun k).slot k).startIgnored = false ∧
    ((s.startRun k).slot k).ctrl = (s.slot k).ctrl ∧ ((s.startRun k).slot k).workCtrl = (s.slot k).ctrl ∧
    ((s.startRun k).slot k).workCount = (s.slot k).count ∧ ((s.startRun k).slot k).src = (s.slot k).src ∧
    ((s.startRun k).slot k).dst = (s.slot k).dst := by
  rw [State.startRun, State.slot_setSlot_self]
  exact ⟨rfl, rfl, rfl, rfl, rfl, rfl, rfl⟩

/-! ## What a write of a slot leaves as it is -/

/-- t has memory, the contexts and the slots but k as s has them. -/
structure SlotOnly (k : Nat) (s t : State) : Prop where
  mem : t.mem = s.mem
  ctxs : t.ctxs = s.ctxs
  others : ∀ j, j ≠ k → t.slot j = s.slot j

theorem SlotOnly.of_eq {s t : State} (hm : t.mem = s.mem) (hc : t.ctxs = s.ctxs) (hs : t.sched.slots = s.sched.slots) :
    SlotOnly k s t := ⟨hm, hc, fun j _ => by simp only [State.slot, hs]⟩
theorem SlotOnly.refl (k : Nat) (s : State) : SlotOnly k s s := .of_eq rfl rfl rfl
theorem SlotOnly.trans {s t u : State} (h : SlotOnly k s t) (g : SlotOnly k t u) : SlotOnly k s u :=
  ⟨g.mem.trans h.mem, g.ctxs.trans h.ctxs, fun j hj => (g.others j hj).trans (h.others j hj)⟩
theorem SlotOnly.setSlot {s t : State} (h : SlotOnly k s t) (x : Slot) : SlotOnly k s (t.setSlot k x) :=
  h.trans ⟨rfl, rfl, fun j hj => (t.slot_setSlot k j x).trans (if_neg hj.symm)⟩
theorem SlotOnly.ite {p : Prop} [Decidable p] {s t u : State} (h : SlotOnly k s t) (g : SlotOnly k s u) :
    SlotOnly k s (if p then t else u) := by
  split
  · exact h
  · exact g
theorem SlotOnly.abortRun {s t : State} (h : SlotOnly k s t) : SlotOnly k s (t.abortRun k) :=
  have hw (f : PortReq → Bool) : SlotOnly k s (t.withdraw f) := h.trans (.of_eq rfl rfl rfl)
  .ite ((hw _).setSlot _) h
theorem SlotOnly.startRun {s t : State} (h : SlotOnly k s t) : SlotOnly k s (t.startRun k) :=
  have hn : SlotOnly k s { t with sched := { t.sched with nextSerial := t.sched.nextSerial + 1 } } := h.trans (.of_eq rfl rfl rfl)
  hn.setSlot _
theorem SlotOnly.writeSlot {s t : State} (h : SlotOnly k s t) (reg v : Nat) : SlotOnly k s (t.writeSlot k reg v) :=
  have ha : SlotOnly k s (if bitOf v 1 then (t.ctrlLanded k v).abortRun k else t.ctrlLanded k v) :=
    .ite (h.setSlot _).abortRun (h.setSlot _)
  .ite (.ite (.ite ha.startRun (ha.setSlot _)) ha) (h.setSlot _)

/-! ## The window (R421, R436 to R438) -/

variable {id reg : Nat}

@[simp] theorem State.takeAccess_slot (j : Nat) : (s.takeAccess id).slot j = s.slot j := rfl
@[simp] theorem State.respond_slot (d j : Nat) (e : Bool) : (s.respond id d e).slot j = s.slot j := rfl

/-- The port takes the access, the slot the write, and the access is answered without error. -/
theorem State.windowPort_write (ht : s.portTakes id = true) (ho : s.slotOwner k = 0) :
    s.windowPort id k reg true v = ((s.takeAccess id).writeSlot k reg v).respond id 0 false := by
  have hu : (s.takeAccess id).slotOwner k = 0 := ho
  simp [State.windowPort, State.windowAccess, ht, hu]
theorem State.windowPort_refused (ht : s.portTakes id = true) (ho : s.slotOwner k = 1) :
    s.windowPort id k reg true v = (s.takeAccess id).respond id 0 true := by
  have hu : (s.takeAccess id).slotOwner k = 1 := ho
  simp [State.windowPort, State.windowAccess, ht, hu]
theorem State.slotWrite_window (hk : k < 64) : s.slotWrite (.window id) k reg v = s.windowPort id k (reg % 0x400 / 8 * 8) true v :=
  if_neg (by omega)
theorem exec_legacyStart (via : Via) (hb : startBit v = true) :
    exec (.legacyStart via k v) s = .next (s.slotWrite via k 0x18 v) :=
  congrArg Host.Outcome.next (if_pos hb)
theorem exec_legacyAbort (via : Via) (ha : abortBit v = true) :
    exec (.legacyAbort via k v) s = .next (s.slotWrite via k 0x18 v) :=
  congrArg Host.Outcome.next (if_pos ha)
theorem exec_legacyShadowWrite (via : Via) (h : reg % 0x400 / 8 * 8 ≠ 0x18 ∨ (startBit v = false ∧ abortBit v = false)) :
    exec (.legacyShadowWrite via k reg v) s = .next (s.slotWrite via k reg v) := by
  refine congrArg Host.Outcome.next (if_neg ?_)
  rintro ⟨hr, hb⟩
  obtain h | ⟨hs, ha⟩ := h
  · exact h hr
  · simp [hs, ha] at hb

/-- A write that the window takes: memory, the contexts and the other slots stay, and the slot is as the write leaves it. -/
theorem exec_windowWrite {i : Instr} (hk : k < 64) (ht : s.portTakes id = true) (ho : s.slotOwner k = 0)
    (he : exec i s = .next (s.slotWrite (.window id) k 0x18 v)) : ∃ t, exec i s = .next t ∧ t.mem = s.mem ∧ t.ctxs = s.ctxs ∧
      t.slot k = ((s.takeAccess id).writeSlot k 0x18 v).slot k ∧ ∀ j, j ≠ k → t.slot j = s.slot j := by
  have hu : SlotOnly k s (s.takeAccess id) := .of_eq rfl rfl rfl
  have hw := hu.writeSlot 0x18 v
  have hp : s.slotWrite (.window id) k 0x18 v = ((s.takeAccess id).writeSlot k 0x18 v).respond id 0 false :=
    (State.slotWrite_window hk).trans (State.windowPort_write ht ho)
  exact ⟨_, he.trans (congrArg _ hp), hw.mem, hw.ctxs, rfl, hw.others⟩

theorem slotsTakeWindowWrites : Claims.SlotsTakeWindowWrites := by
  intro id k reg data s hk ht
  refine ⟨fun ho hr => ?_, fun ho hb hm hst => ?_, fun ho hb ha hst => ?_, fun ho hb ha => ?_, fun ho v hv => ?_⟩
  · have he := (exec_legacyShadowWrite (s := s) (k := k) (.window id) hr).trans (congrArg _ (State.slotWrite_window hk))
    rw [State.windowPort_write ht ho, State.writeSlot_plain fun h => hr.resolve_left fun k => k h] at he
    exact ⟨_, he, rfl, rfl, State.slot_setSlot_self .., fun j hj => (State.slot_setSlot ..).trans (if_neg hj.symm), rfl⟩
  · have hc : (s.takeAccess id).canStart k = true := by
      obtain h | h := hst <;> simp [State.canStart, hm, h]
    obtain ⟨t, he, hmem, hctx, hslot, hothers⟩ := exec_windowWrite hk ht ho (exec_legacyStart (.window id) hb)
    obtain ⟨h1, h2, h3, h4, h5, h6, h7⟩ := State.startRun_slot (s := (s.takeAccess id).ctrlLanded k data) (k := k)
    rw [State.writeSlot_start hb hc] at hslot
    rw [State.ctrlLanded_slot] at h3 h4 h5 h6 h7
    rw [← hslot] at h1 h2 h3 h4 h5 h6 h7
    exact ⟨t, he, hmem, hctx, h1, h2, h3, h4, h5, h6, h7, hothers⟩
  · have hc : (s.takeAccess id).canStart k = false := by
      obtain h | h := hst <;> simp [State.canStart, h]
    obtain ⟨t, he, hmem, hctx, hslot, -⟩ := exec_windowWrite hk ht ho (exec_legacyStart (.window id) hb)
    rw [State.writeSlot_ignored hb ha hc, State.slot_setSlot_self] at hslot
    exact ⟨t, he, hmem, hctx, hslot⟩
  · obtain ⟨t, he, hmem, hctx, hslot, -⟩ := exec_windowWrite hk ht ho (exec_legacyAbort (.window id) ha)
    rw [State.writeSlot_abort hb ha] at hslot
    refine ⟨t, he, hmem, hctx, hslot.trans ?_⟩
    split
    case isTrue h1 => rw [State.abortRun_slot (by simpa using h1), State.ctrlLanded_slot, State.takeAccess_slot]
    case isFalse h1 => rw [State.abortRun_idle (by simpa using h1), State.ctrlLanded_slot, State.takeAccess_slot]
  · have hw : s.slotWrite (.window id) k 0x18 data = (s.takeAccess id).respond id 0 true :=
      (State.slotWrite_window hk).trans (State.windowPort_refused ht ho)
    rw [← hw]
    obtain ⟨rfl, hb⟩ | ⟨rfl, ha⟩ := hv
    · exact exec_legacyStart _ hb
    · exact exec_legacyAbort _ ha

/-! ## The dictionary (R283, R381, R437, R441, R443) -/

variable {sub : Nat} {r : Request}

theorem actingObjects_slot (hk : k < 64) : actingObjects.contains (0x8000 + k) = false := by
  simp only [actingObjects, List.contains_eq_mem, List.mem_cons, List.not_mem_nil, or_false, decide_eq_false_iff_not]
  omega
theorem isSlotReg_slot (hk : k < 64) (hs : 2 ≤ sub) : isSlotReg (0x8000 + k) sub = true := by
  simp only [isSlotReg, Bool.and_eq_true, decide_eq_true_eq]
  omega
theorem State.writeObject_slotReg {i : Nat} (hi : actingObjects.contains i = false) (hs : isSlotReg i sub = true) :
    s.writeObject i sub v = s.writeSlotObj (i - 0x8000) sub v := by
  unfold State.writeObject
  split
  case h_17 => exact if_pos hs
  all_goals exact absurd hi (by decide)
theorem State.dueNow_slot (hk : k < 64) (hs : 2 ≤ sub) :
    s.dueNow (some (0x8000 + k, sub, v)) = s.writeSlot k ((sub - 2) * 8) v := by
  have ne (n : Nat) (hn : actingObjects.contains n = true) : 0x8000 + k ≠ n := by
    rintro rfl
    rw [actingObjects_slot hk] at hn
    cases hn
  simp only [State.dueNow, State.inForce, isSlotReg_slot hk hs, if_neg (ne 0x2001 rfl), if_neg (ne 0xC000 rfl),
    if_neg (ne 0x6051 rfl), if_true, Nat.add_sub_cancel_left]

/-- A value of CTRL with START that begins no run is refused; another value is to come with the response of its write. -/
theorem State.writeSlotObj_refused (ho : s.slotOwner k = 1) (hb : startBit v = true) (ha : abortBit v = false)
    (hc : s.canStart k = false) : s.writeSlotObj k 5 v = .refuse 0x50000001 := by
  have hs : bitOf v 0 = true := hb
  have h1 : bitOf v 1 = false := ha
  simp [State.writeSlotObj, ho, hs, h1, hc, abortState]
theorem State.writeSlotObj_later (ho : s.slotOwner k = 1) (h : sub = 5 → startBit v = false ∨ s.canStart k = true) :
    s.writeSlotObj k sub v =
      .later (s.comingDue (0x8000 + k) sub v).syncConfig (some (0x8000 + k, sub, v)) .none := by
  have hi : ¬ (sub = 5 ∧ (bitOf v 0 && !s.canStart k) = true) := by
    rintro ⟨h5, hb⟩
    obtain hb' | hc := h h5
    · have h0 : bitOf v 0 = false := hb'
      simp [h0] at hb
    · simp [hc] at hb
  rw [State.writeSlotObj, if_neg fun h => h ho]
  exact if_neg hi

theorem State.followNow_sched (a : After) : (s.followNow a).sched = s.sched := by
  cases a with
  | none => rfl
  | point => rfl
  | protection => exact State.raise_sched ..

/-- Slot k of t is as a write leaves it of a state with the slot and the mode of s. -/
def SlotWritten (s t : State) (k reg v : Nat) : Prop :=
  ∃ u : State, u.slot k = s.slot k ∧ u.ctl.mode = s.ctl.mode ∧ t.slot k = (u.writeSlot k reg v).slot k

theorem SlotWritten.plain {t : State} (h : SlotWritten s t k reg v) (hr : reg ≠ 0x18) : t.slot k = (s.slot k).writeReg reg v := by
  obtain ⟨u, hu, -, ht⟩ := h
  rw [ht, State.writeSlot_plain fun e => absurd e hr, State.slot_setSlot_self, hu]
theorem SlotWritten.started {t : State} (h : SlotWritten s t k 0x18 v) (hb : startBit v = true) (hc : s.canStart k = true) :
    (t.slot k).state = 1 ∧ (t.slot k).workCtrl = ctrlFields v := by
  obtain ⟨u, hu, hm, ht⟩ := h
  have hcu : u.canStart k = true := by rw [State.canStart, hu, hm]; exact hc
  obtain ⟨h1, -, -, h4, -⟩ := State.startRun_slot (s := u.ctrlLanded k v) (k := k)
  rw [ht, State.writeSlot_start hb hcu, h1, h4, State.ctrlLanded_slot]
  exact ⟨rfl, rfl⟩
theorem SlotWritten.aborted {t : State} (h : SlotWritten s t k 0x18 v) (hb : startBit v = false) (ha : abortBit v = true)
    (h1 : (s.slot k).state = 1) : (t.slot k).state = 3 := by
  obtain ⟨u, hu, -, ht⟩ := h
  rw [ht, State.writeSlot_abort hb ha, State.abortRun_slot (by rw [State.ctrlLanded_slot, hu]; exact h1)]

/-- With the response of its write the value is in the slot. -/
theorem State.returned_slot (hk : k < 64) (hs : 2 ≤ sub) (a : After) :
    SlotWritten s (s.returned r (some (0x8000 + k, sub, v)) a) k ((sub - 2) * 8) v := by
  refine ⟨{ s with ctl := { s.ctl with acted := false, due := none, after := .none } }, rfl, rfl, State.slot_congr ?_ k⟩
  rw [State.returned, (Answered.answerRequest _ r 0 []).eq, State.dueNow_slot hk hs]
  exact State.followNow_sched a

theorem State.slotWrite_dictionary (hk : k < 64) : s.slotWrite .dictionary k reg v =
    s.serveFor fun r => r.writesValue (0x8000 + k) v && decide (r.sub = reg / 8 + 2) := if_neg (by omega)
/-- The command serves the write that is at the front of CTL's queue. -/
theorem State.slotWrite_writes (hk : k < 64) (h : Claims.writes s r (0x8000 + k) (reg / 8 + 2) v) :
    s.slotWrite .dictionary k reg v = s.reply r (s.writeSlotObj k (reg / 8 + 2) v) := by
  have hsub : r.sub = reg / 8 + 2 := by
    obtain ⟨-, -, -, -, -, hsub, -⟩ := h
    exact hsub
  rw [State.slotWrite_dictionary hk, s.serveFor_write r _ _ _ _ h (by simp [writesValue_of_writes h, hsub]),
    State.writeObject_slotReg (actingObjects_slot hk) (isSlotReg_slot hk (by omega)), Nat.add_sub_cancel_left]
/-- The command returns the response that is due. -/
theorem State.slotWrite_returns (hk : k < 64) (h : Claims.returns s r (0x8000 + k) (reg / 8 + 2) v) (hsub : r.sub = reg / 8 + 2)
    (hv : r.value = v) :
    s.slotWrite .dictionary k reg v = s.returned r (some (0x8000 + k, reg / 8 + 2, v)) s.ctl.after := by
  obtain ⟨hw, hs, hi, ha, hd, hu, hp⟩ := h
  rw [State.slotWrite_dictionary hk, s.serveFor_front _ r hw (by simp [Request.writesValue, Request.writesTo, hs, hi, hv, hsub]),
    State.serve_acted ha, hu, hp, hd]
  rfl
theorem State.slotWrite_returned (hk : k < 64) (h : Claims.returns s r (0x8000 + k) (reg / 8 + 2) v) (hsub : r.sub = reg / 8 + 2)
    (hv : r.value = v) : SlotWritten s (s.slotWrite .dictionary k reg v) k (reg / 8 * 8) v := by
  rw [State.slotWrite_returns hk h hsub hv]
  exact State.returned_slot hk (Nat.le_add_left 2 (reg / 8)) _

theorem State.syncConfig_keeps (s : State) : s.syncConfig.sched = s.sched ∧ s.syncConfig.ctl = s.ctl := by
  rw [State.syncConfig_eq]
  exact ⟨rfl, rfl⟩

section
variable (hk : k < 64) (ho : s.slotOwner k = 1) (h : Claims.writes s r (0x8000 + k) (reg / 8 + 2) v)
  (hc : reg / 8 + 2 = 5 → startBit v = false ∨ s.canStart k = true)
include hk ho h hc

/-- Without a journal a value that the slot takes is answered in the same step. -/
theorem State.slotWrite_unjournaled (hj : s.journaled = false) : s.slotWrite .dictionary k reg v =
    (s.comingDue (0x8000 + k) (reg / 8 + 2) v).returned r (some (0x8000 + k, reg / 8 + 2, v)) .none := by
  have hp : s.pool.jobs.contains .answer = false := by
    obtain ⟨-, -, hp, -⟩ := h
    exact hp
  rw [State.slotWrite_writes hk h, State.writeSlotObj_later ho hc, State.syncConfig_unjournaled (s.comingDue ..) hj,
    s.reply_later_returned (s.comingDue ..) r _ _ rfl hp]
/-- A value that the slot takes is in it with the response, or is to come with it. -/
theorem State.slotWrite_comes : SlotWritten s (s.slotWrite .dictionary k reg v) k (reg / 8 * 8) v ∨
    (Claims.comes s (s.slotWrite .dictionary k reg v) (0x8000 + k) (reg / 8 + 2) v ∧
      (s.slotWrite .dictionary k reg v).slot k = s.slot k) := by
  obtain ⟨hsched, hctl⟩ := (s.comingDue (0x8000 + k) (reg / 8 + 2) v).syncConfig_keeps
  have hw : (s.comingDue (0x8000 + k) (reg / 8 + 2) v).syncConfig.ctl.waiting = s.ctl.waiting := by rw [hctl]; rfl
  have hm : (s.comingDue (0x8000 + k) (reg / 8 + 2) v).syncConfig.ctl.mode = s.ctl.mode := by rw [hctl]; rfl
  rw [State.slotWrite_writes hk h, State.writeSlotObj_later ho hc]
  obtain hr | hr := s.reply_later (s.comingDue (0x8000 + k) (reg / 8 + 2) v).syncConfig r
    (some (0x8000 + k, reg / 8 + 2, v)) .none <;> rw [hr]
  · exact .inr ⟨⟨rfl, rfl, hw⟩, State.slot_congr hsched k⟩
  · obtain ⟨u, hu, hmu, ht⟩ := State.returned_slot (s := (s.comingDue (0x8000 + k) (reg / 8 + 2) v).syncConfig) (r := r) (v := v)
      hk (Nat.le_add_left 2 (reg / 8)) .none
    exact .inl ⟨u, hu.trans (State.slot_congr hsched k), hmu.trans hm, ht⟩
theorem State.slotWrite_written (hj : s.journaled = false) :
    SlotWritten s (s.slotWrite .dictionary k reg v) k (reg / 8 * 8) v := by
  rw [State.slotWrite_unjournaled hk ho h hc hj]
  obtain ⟨u, hu, hm, ht⟩ := State.returned_slot (s := s.comingDue (0x8000 + k) (reg / 8 + 2) v) (r := r) (v := v)
    hk (Nat.le_add_left 2 (reg / 8)) .none
  exact ⟨u, hu, hm, ht⟩
end

theorem slotsTakeDictionaryWrites : Claims.SlotsTakeDictionaryWrites := by
  intro k reg data r s hk ho i sub
  have shadow (hr : reg ∈ [0, 8, 0x10]) : exec (.legacyShadowWrite .dictionary k reg data) s =
      .next (s.slotWrite .dictionary k reg data) ∧ reg / 8 * 8 = reg ∧ reg ≠ 0x18 ∧ sub ≠ 5 := by
    simp only [List.mem_cons, List.not_mem_nil, or_false] at hr
    exact ⟨exec_legacyShadowWrite _ (.inl (by omega)), by omega, by omega, by omega⟩
  refine ⟨fun h => ⟨fun hj => ⟨fun hr => ?_, ?_, ?_⟩, fun hj hr => ?_, ?_, ?_⟩, fun h hs hv => ⟨fun hr => ?_, ?_, ?_⟩⟩
  · obtain ⟨he, hreg, hne, hsub⟩ := shadow hr
    rw [he, State.slotWrite_unjournaled hk ho h (fun e => absurd e hsub) hj, State.returned,
      State.dueNow_slot hk (Nat.le_add_left 2 (reg / 8)), Nat.add_sub_cancel, hreg, State.writeSlot_plain fun e => absurd e hne]
    rfl
  · rintro rfl hb - hc
    exact ⟨_, exec_legacyStart _ hb, (State.slotWrite_written hk ho h (fun _ => .inr hc) hj).started hb hc⟩
  · rintro rfl hb ha h1
    exact ⟨_, exec_legacyAbort _ ha, (State.slotWrite_written hk ho h (fun _ => .inl hb) hj).aborted hb ha h1⟩
  · obtain ⟨he, hreg, hne, hsub⟩ := shadow hr
    obtain hw | hcomes := State.slotWrite_comes hk ho h fun e => absurd e hsub
    · rw [hreg] at hw
      exact ⟨_, he, .inl (hw.plain hne)⟩
    · exact ⟨_, he, .inr hcomes⟩
  · rintro - rfl hb - hc
    refine ⟨_, exec_legacyStart _ hb, (State.slotWrite_comes hk ho h fun _ => .inr hc).imp_left fun hw => ?_⟩
    exact (hw.started hb hc).1
  · rintro rfl hb ha hc
    rw [exec_legacyStart _ hb, State.slotWrite_writes hk h, State.writeSlotObj_refused ho hb ha hc]
    rfl
  · obtain ⟨he, hreg, hne, -⟩ := shadow hr
    have hw := State.slotWrite_returned hk h hs hv
    rw [hreg] at hw
    obtain ⟨-, hacted, -⟩ := s.returned_keeps r (some (0x8000 + k, reg / 8 + 2, data)) s.ctl.after
    rw [← State.slotWrite_returns hk h hs hv] at hacted
    exact ⟨_, he, hw.plain hne, hacted⟩
  · rintro rfl hb - hc
    exact ⟨_, exec_legacyStart _ hb, ((State.slotWrite_returned hk h hs hv).started hb hc).1⟩
  · rintro rfl hb ha h1
    exact ⟨_, exec_legacyAbort _ ha, (State.slotWrite_returned hk h hs hv).aborted hb ha h1⟩

/-! ## The end of a run (R445 to R448) -/

@[simp] theorem State.post_slot (i w j : Nat) : (s.post i w).slot j = s.slot j := rfl
theorem State.postsOf_post (i w : Nat) : (s.post i w).postsOf i w = s.postsOf i w + 1 := by
  simp only [State.postsOf, State.post, Tab.get_put_self]
/-- From s to t slot k has ended with its status, and its event is posted (R446). -/
def SlotEnded (s t : State) (k code left : Nat) : Prop :=
  t.mem = s.mem ∧ (t.slot k).state = 2 ∧ (t.slot k).code = code ∧ (t.slot k).remaining = left ∧ (t.slot k).run = none ∧
    t.postsOf schedIsland (bitsOf (s.slot k).workCtrl 12 4) = s.postsOf schedIsland (bitsOf (s.slot k).workCtrl 12 4) + 1
theorem State.endSlot_ended (code left : Nat) (hev : bitOf (s.slot k).workCtrl 11 = true) :
    SlotEnded s (s.endSlot k code left) k code left := by
  have he : s.endSlot k code left = (s.setSlot k { s.slot k with
      state := 2, code := code, remaining := left, run := none, faults := [], stalled := none, zero := false }).post schedIsland
        (bitsOf (s.slot k).workCtrl 12 4) := if_pos hev
  rw [he, SlotEnded, State.post_slot, State.slot_setSlot_self]
  exact ⟨rfl, rfl, rfl, rfl, rfl, State.postsOf_post ..⟩

variable {q : OpRun}

theorem State.slot_of_channel : s.slot (legacyBase + k - legacyBase) = s.slot k := by rw [Nat.add_sub_cancel_left]
theorem State.run_slot : s.run (legacyBase + k) = (s.slot k).run := by
  rw [State.run, if_pos (Nat.le_add_right ..), State.slot_of_channel]
theorem State.modRun_slot (f : OpRun → OpRun) (hr : (s.slot k).run = some q) :
    s.modRun (legacyBase + k) f = s.setSlot k { s.slot k with run := some (f q) } := by
  rw [State.modRun, if_pos (Nat.le_add_right ..), Nat.add_sub_cancel_left]
  dsimp only
  rw [hr]
  rfl
theorem State.failing_slot (h1 : (s.slot k).state = 1) (hf : (s.slot k).faults = []) : s.failing (legacyBase + k) = false := by
  rw [State.failing, if_pos (Nat.le_add_right ..), State.slot_of_channel, h1, hf]
  rfl

/-- A run without segments in flight has nothing to settle and nothing to carry. -/
theorem State.settle_noSegs (hr : (s.slot k).run = some q) (hs : q.segs = []) :
    s.settle (legacyBase + k) = s.setSlot k { s.slot k with run := some q } := by
  have hq : s.settleSegs (legacyBase + k) q = q := by
    rw [State.settleSegs, hs]
    obtain ⟨⟩ := q
    cases hs
    rfl
  have hd : q.foldDone q.segs.length = q := by rw [hs]; rfl
  rw [State.settle, State.modRun_slot _ hr, hq, hd]
theorem State.carryAll_noSegs (n : Nat) (hr : (s.slot k).run = some q) (hs : q.segs = []) :
    s.carryAll (legacyBase + k) (n + 1) = s.setSlot k { s.slot k with run := some q } := by
  have hrun : (s.setSlot k { s.slot k with run := some q }).run (legacyBase + k) = some q := by
    rw [State.run_slot, State.slot_setSlot_self]
  rw [State.carryAll, State.settle_noSegs hr hs, hrun]
  dsimp only
  rw [hs]
  rfl

/-- The end of a copying op changes its run, and else the contexts alone. -/
theorem State.concludeOp_move {a b : Side} (c : Nat) (hop : q.op = .move a b) {u : State}
    (hu : s.modRun c (fun r => { r with phase := .finished }) = u) : (s.concludeOp c q).mem = u.mem ∧
    (s.concludeOp c q).ctl = u.ctl ∧ (s.concludeOp c q).sched = u.sched ∧ (s.concludeOp c q).ports = u.ports ∧
    (s.concludeOp c q).stash = u.stash ∧ (s.concludeOp c q).fab = u.fab := by
  simp only [State.concludeOp, hop, hu]
  simp [State.credit, State.finishOp]
theorem State.afterData_move {a b : Side} (c : Nat) (hop : q.op = .move a b) (hp : q.phase = .data) (hd : q.dataDone = true) :
    s.afterData c q = s.concludeOp c q := by
  simp [State.afterData, State.endData, Op.result, hp, hd, hop]

/-- Where a copying run has every segment complete, its next stage is its end. -/
theorem State.advanceRun_ends {a b : Side} (h1 : (s.slot k).state = 1) (hf : (s.slot k).faults = []) (hr : (s.slot k).run = some q)
    (hop : q.op = .move a b) (hs : q.segs = []) (hp : q.phase = .data) (ht : q.total ≤ q.cut) :
    ∃ t : State, s.advanceRun (legacyBase + k) = t ∧ t.mem = s.mem ∧ t.ctl = s.ctl ∧
      t.slot k = { s.slot k with run := some { q with phase := .finished } } ∧
      t.chanAccess (legacyBase + k) = s.chanAccess (legacyBase + k) := by
  have hd : q.dataDone = true := by simp [OpRun.dataDone, ht, hs]
  generalize hu : s.setSlot k { s.slot k with run := some q } = u
  have hus : u.slot k = { s.slot k with run := some q } := by rw [← hu, State.slot_setSlot_self]
  have hrun : u.run (legacyBase + k) = some q := by rw [State.run_slot, hus]
  have hfail : u.failing (legacyBase + k) = false := State.failing_slot (by rw [hus]; exact h1) (by rw [hus]; exact hf)
  have he : s.advanceRun (legacyBase + k) = u.concludeOp (legacyBase + k) q := by
    rw [State.advanceRun, State.carryAll_noSegs 31 hr hs, hu]
    simp only [hfail, hrun, State.afterData_move _ hop hp hd, Bool.false_eq_true, if_false]
  obtain ⟨hmem, hctl, hsched, hports, hstash, hfab⟩ := State.concludeOp_move (s := u) (legacyBase + k) hop
    (State.modRun_slot _ (show (u.slot k).run = some q by rw [hus]))
  subst hu
  refine ⟨_, he, hmem, hctl, ?_, ?_⟩
  · rw [State.slot_congr hsched, State.slot_setSlot_self, hus]
  · simp only [State.chanAccess, State.owners, hports, hstash, hfab]
    rfl

theorem slotRunsEnd : Claims.SlotRunsEnd := by
  intro k s hacc hev hfull
  have ends {code left : Nat} (he : s.runEnd k = s.endSlot k code left) :
      ∃ t, exec (.legacyRunEnd k) s = .next t ∧ SlotEnded s t k code left :=
    ⟨_, congrArg Host.Outcome.next he, s.endSlot_ended code left hev⟩
  refine ⟨⟨fun h1 hr hf => ends ?_, fun f l h1 hr hf => ends ?_, fun h3 hr => ends ?_, fun q a b h1 hr hop hs hp ht hf => ?_⟩,
    fun h1 h3 => congrArg Host.Outcome.next (if_pos ⟨h1, h3⟩)⟩
  · simp [State.runEnd, h1, hr, hf, hacc, hfull, Status.code]
  · simp [State.runEnd, h1, hr, hf, hacc, hfull]
  · simp [State.runEnd, h3, hr, hacc, hfull, Status.code]
  · obtain ⟨t, hadv, hmem, hctl, hslot, hch⟩ := State.advanceRun_ends h1 hf hr hop hs hp ht
    have he : s.runEnd k = t.endSlot k 0 0 := by
      simp [State.runEnd, h1, hr, hf, hacc, hfull, hadv, hch, hslot, Status.code]
    have hposts (w : Nat) : t.postsOf schedIsland w = s.postsOf schedIsland w := by simp only [State.postsOf, hctl]
    obtain ⟨hm, hst, hcode, hleft, hrun, hp⟩ := t.endSlot_ended (k := k) 0 0 (by rw [hslot]; exact hev)
    rw [hslot, hposts] at hp
    exact ⟨_, congrArg Host.Outcome.next he, hm.trans hmem, hst, hcode, hleft, hrun, hp⟩

/-- Settles O43: what a write of a register does to its slot, by START and ABORT; the window's and the dictionary's writes are such
writes; and a run without segments in flight ends in the stage that finds it. -/
theorem legacySlotsRunTheirTransfers : Obligations.LegacySlotsRunTheirTransfers :=
  ⟨slotsTakeWindowWrites, slotsTakeDictionaryWrites, slotRunsEnd⟩

end Sys2Proof.Machine
end

section
/-! PROOFS. The frames of a link (R303, R304): what the receiver reads back of the bytes that were sent. -/
namespace Sys2Proof.Machine

/-! ## The header (R303, R304) -/

variable (f : Frame)

/-- The byte of the header that holds VL, CLASS, DOWN and MASKED. -/
def frameFlags : Nat := f.vl % 4 + f.cls % 8 * 4 + boolBit f.down 5 + boolBit f.masked 6
/-- The last 8 bytes of the header: the frame's word, and above it the count of its payload's units. -/
def frameSizedWord : Nat := f.word % localSize + frameUnits f * localSize
/-- The first 16 bytes of a frame. -/
def frameHeader : List Byte :=
  leBytes 1 f.type ++ (leBytes 1 (frameFlags f) ++ (leBytes 2 (f.dest % 4096 + f.hops % 16 * 4096) ++ (leBytes 2 (f.src % 4096) ++
    (leBytes 2 f.tag ++ leBytes 8 (frameSizedWord f)))))

@[simp] theorem frameHeader_length : (frameHeader f).length = 16 := by simp [frameHeader]

/-- VL, CLASS, DOWN and MASKED do not overlap in their byte. -/
theorem frameFlags_reads (hv : f.vl < 4) (hc : f.cls < 8) : frameFlags f < 256 ∧
    bitsOf (frameFlags f) 0 2 = f.vl ∧ bitsOf (frameFlags f) 2 3 = f.cls ∧ bitOf (frameFlags f) 5 = f.down ∧
    bitOf (frameFlags f) 6 = f.masked := by
  have hb (b : Bool) (i : Nat) : boolBit b i = b.toNat * 2 ^ i := by cases b <;> simp [boolBit]
  have hd := f.down.toNat_lt
  have hm := f.masked.toNat_lt
  have bit (b : Bool) (n : Nat) (h : n = b.toNat) : decide (n = 1) = b := by subst h; cases b <;> rfl
  simp only [frameFlags, hb, bitsOf, bitOf]
  refine ⟨?_, ?_, ?_, bit _ _ ?_, bit _ _ ?_⟩ <;> omega

/-- The word and the count of units do not overlap. -/
theorem frameSizedWord_reads (hw : f.word < 2 ^ 51) (hu : frameUnits f < 128) : frameSizedWord f < 2 ^ 64 ∧
    frameSizedWord f % localSize = f.word ∧ bitsOf (frameSizedWord f) 51 7 = frameUnits f := by
  simp only [frameSizedWord, localSize, bitsOf]
  omega

/-- A payload of whole units is as long as its units. -/
theorem frameUnits_length (h : f.payload.length % 16 = 0) : 16 * frameUnits f = f.payload.length := by
  simp only [frameUnits]
  omega
/-- A frame of whole units is its header with the payload behind it. -/
theorem frameBytes_eq (h : f.payload.length % 16 = 0) : frameBytes f = frameHeader f ++ f.payload := by
  simp [frameBytes, frameHeader, frameFlags, frameSizedWord, frameUnits_length f h]

/-- Each field of the header reads back, whatever stands behind it. -/
theorem frameHeader_reads (h : Claims.frameFits f) (l : List Byte) :
    fieldAt (frameHeader f ++ l) 0 1 = f.type ∧ fieldAt (frameHeader f ++ l) 1 1 = frameFlags f ∧
    fieldAt (frameHeader f ++ l) 2 2 = f.dest + f.hops * 4096 ∧ fieldAt (frameHeader f ++ l) 4 2 = f.src ∧
    fieldAt (frameHeader f ++ l) 6 2 = f.tag ∧ fieldAt (frameHeader f ++ l) 8 8 = frameSizedWord f := by
  obtain ⟨htype, hcls, hvl, hdest, hhops, hsrc, htag, hword, hwhole, hlen⟩ := h
  obtain ⟨hflags, -⟩ := frameFlags_reads f hvl hcls
  obtain ⟨hsized, -⟩ := frameSizedWord_reads f hword (by have := frameUnits_length f hwhole; omega)
  have hrange : f.dest + f.hops * 4096 < 65536 := by omega
  have hsrc16 : f.src < 65536 := by omega
  simp only [Nat.reducePow] at hsized
  simp [frameHeader, fieldAt_leBytes_append, fieldAt_leBytes_skip, Nat.mod_eq_of_lt, *]

/-! ## The obligation -/

/-- Settles O44: the header's fields stand at their offsets, and its count of units gives the payload's end. -/
theorem framesReadBack : Obligations.FramesReadBack := by
  intro f rest h
  obtain ⟨rtype, rflags, rdest, rsrc, rtag, rword⟩ := frameHeader_reads f h (f.payload ++ rest)
  obtain ⟨-, hcls, hvl, hdest, -, hsrc, -, hword, hwhole, hlen⟩ := h
  have hsize := frameUnits_length f hwhole
  obtain ⟨-, bvl, bcls, bdown, bmasked⟩ := frameFlags_reads f hvl hcls
  obtain ⟨-, bword, bunits⟩ := frameSizedWord_reads f hword (by omega)
  have hbehind : (frameHeader f ++ (f.payload ++ rest)).drop 16 = f.payload ++ rest := List.drop_left' (frameHeader_length f)
  have hpay : (f.payload ++ rest).take (16 + f.payload.length - 16) = f.payload := by
    rw [Nat.add_sub_cancel_left, List.take_left]
  have hrest : (frameHeader f ++ (f.payload ++ rest)).drop (16 + f.payload.length) = rest := by
    rw [← List.drop_drop, hbehind, List.drop_left]
  have hd : (f.dest + f.hops * 4096) % 4096 = f.dest := by omega
  have hh : (f.dest + f.hops * 4096) / 4096 = f.hops := by omega
  rw [frameBytes_eq f hwhole, List.append_assoc]
  simp only [frameOf, rtype, rflags, rdest, rsrc, rtag, rword, bvl, bcls, bdown, bmasked, bword, bunits, hsize, hbehind, hpay, hrest,
    hd, hh, Nat.mod_eq_of_lt hsrc]
  rw [if_neg (by simp only [List.length_append, frameHeader_length]; omega)]

end Sys2Proof.Machine
end

section
/-! PROOFS. The links (R299 to R302, R313, R314): lock, training, beacons, loss, and the blocks of a link. -/
namespace Sys2Proof.Machine

variable (s : State) (l : Nat)

/-! ## What a node keeps while it floods, asks and sends -/

/-- t has of each link all that s has but for the frames that wait to be sent, and the same assigner. -/
structure KeepsPeers (s t : State) : Prop where
  link : ∀ m, t.link m = { s.link m with tx := (t.link m).tx }
  root : t.root = s.root

theorem State.root_congr {s t : State} (h1 : t.fab.rootSerial = s.fab.rootSerial) (h2 : t.straps = s.straps) : t.root = s.root := by
  simp only [State.root, State.ownSerial, h1, h2]
theorem KeepsPeers.trans {s t u : State} (h : KeepsPeers s t) (k : KeepsPeers t u) : KeepsPeers s u :=
  ⟨fun m => by rw [k.link m, h.link m], k.root.trans h.root⟩
theorem KeepsPeers.of_links {s t : State} (h1 : t.fab.links = s.fab.links) (h2 : t.root = s.root) : KeepsPeers s t :=
  ⟨fun m => by rw [show t.link m = s.link m by simp only [State.link, h1]], h2⟩
theorem Sends.keepsPeers {s t : State} (h : Sends s t) : KeepsPeers s t := ⟨h.link, by rw [h.eq]; rfl⟩
theorem Quiet.keepsPeers {s t : State} (h : Quiet s t) : KeepsPeers s t :=
  ⟨h.link, State.root_congr (congrArg Fabric.rootSerial h.fab :) h.straps⟩

theorem State.floodAdvert_keepsPeers : KeepsPeers s s.floodAdvert := by
  obtain ⟨t, ht, hf, hs⟩ := s.floodAdvert_sends
  have h : KeepsPeers s t := .of_links (congrArg Fabric.links hf :)
    (State.root_congr (congrArg Fabric.rootSerial hf :) (congrArg State.straps ht :))
  exact h.trans hs.keepsPeers
theorem State.takeId_keepsPeers (id : Option Nat) : KeepsPeers s (s.takeId id) := by
  cases id with
  | some n =>
    have h := State.wakeRoutes_quiet { s with fab := { s.fab with nodeId := some n, nodeState := 1 } }
    exact ⟨h.keepsPeers.link, h.keepsPeers.root⟩
  | none =>
    simp only [State.takeId, State.raiseIf]
    split
    · rw [State.raise_eq]
      exact .of_links rfl rfl
    · exact .of_links rfl rfl
theorem State.askId_keepsPeers : KeepsPeers s s.askId := by
  unfold State.askId
  dsimp only
  split
  · have hg : KeepsPeers s (s.give s.ownSerial (s.idFor s.ownSerial (s.obj 0x6001 0))) := by
      rw [State.give_eq]
      exact .of_links rfl rfl
    exact hg.trans (State.takeId_keepsPeers _ _)
  · split
    · exact ((Sends.refl s).queueFrame _ _).keepsPeers
    · exact .of_links rfl rfl

/-! ## LINK_LOCK (R313) -/

/-- A link whose PCS has lock is not the link of reset. -/
theorem Link.ne_reset {k : Link} (h : k.lock = true) : k ≠ {} := by
  rintro rfl
  cases h
theorem State.linkLock_trains (hc : s.canTrain l = true) (h : (s.link l).state = 0 ∨ (s.link l).state = 4) :
    (s.setLink l { s.link l with lock := true, good := 0 }).awaitLock l =
      s.setLink l { s.link l with lock := true, good := 0, state := 1 } := by
  have hc1 : (s.setLink l { s.link l with lock := true, good := 0 }).canTrain l = true := hc
  unfold State.awaitLock
  simp only [hc1, State.link_setLink_self, h, and_self, if_true]
  exact State.setLink_setLink _ _ _ _ (Link.ne_reset rfl) (Link.ne_reset rfl)
theorem State.linkLock_keeps (h : s.canTrain l = false ∨ ((s.link l).state ≠ 0 ∧ (s.link l).state ≠ 4)) :
    (s.setLink l { s.link l with lock := true, good := 0 }).awaitLock l = s.setLink l { s.link l with lock := true, good := 0 } := by
  have hc : (s.setLink l { s.link l with lock := true, good := 0 }).canTrain l = s.canTrain l := rfl
  unfold State.awaitLock
  dsimp only
  rw [hc, State.link_setLink_self, if_neg]
  rintro ⟨h1, h2⟩
  obtain h | ⟨h0, h4⟩ := h
  · rw [h] at h1
    cases h1
  · exact h2.elim h0 h4

/-! ## LINK_BLOCK (R299, R313, R314, R429) -/

section
variable {s l} {b : List Byte}

theorem State.linkBlock_noLock (hc : s.canTrain l = true) (hb : b.length = 1024) (hl : (s.link l).lock = false) :
    s.linkBlock l b = s.setLink l { s.link l with txBlock := (s.link l).idle } := by
  simp [State.linkBlock, hc, hb, hl]
/-- A block of a link in step 1 counts toward block lock. -/
theorem State.linkBlock_step1 (hc : s.canTrain l = true) (hb : b.length = 1024) (hl : (s.link l).lock = true)
    (h : (s.link l).state = 1) : s.linkBlock l b =
      if blockGood b = false then s.setLink l { s.link l with good := 0, txBlock := (s.link l).idle }
      else if (s.link l).good + 1 < 4 then s.setLink l { s.link l with good := (s.link l).good + 1, txBlock := (s.link l).idle }
      else s.setLink l ({ s.link l with state := 2, good := 0, errs := 0, beacons := 0 } : Link).send := by
  simp [State.linkBlock, hc, hb, hl, h, Link.up]
/-- A block of a link that trains or is up is taken in and answered, or it is one failure too many. -/
theorem State.linkBlock_received (hc : s.canTrain l = true) (hb : b.length = 1024) (hl : (s.link l).lock = true)
    (h : (s.link l).state = 2 ∨ (s.link l).up = true) : s.linkBlock l b =
      if s.obj 0x6043 0 ≠ 0 ∧ s.obj 0x6043 0 < ((s.link l).receive s.fab.nodeId b).errs then
        ((s.setLink l ((s.link l).receive s.fab.nodeId b)).linkDown l).awaitLock l
      else s.setLink l ((s.link l).receive s.fab.nodeId b).send := by
  simp only [State.linkBlock, hc, hb, hl, h, Bool.not_true, Bool.false_eq_true, ne_eq, not_true_eq_false, or_self, if_false, if_true]

end

/-! ## A link that goes down (R314, R352, R410) -/

/-- A link that went down waits for lock again where it may train. -/
theorem State.linkDown_awaitLock : (s.linkDown l).awaitLock l = { s with fab := ((s.linkDown l).awaitLock l).fab } ∧
    (((s.linkDown l).awaitLock l).link l).state = (if s.canTrain l then 1 else 4) ∧
    (((s.linkDown l).awaitLock l).link l).replay = [] := by
  obtain ⟨heq, hstate, hreplay, -⟩ := s.linkDown_link l
  obtain ⟨weq, wstate, wreplay⟩ := (s.linkDown l).awaitLock_link l hstate
  refine ⟨?_, ?_, wreplay.trans hreplay⟩
  · rw [weq, heq]
  · rw [wstate, State.canTrain_congr s _ l heq]
theorem State.dropLink_down (h : (s.link l).state = 2 ∨ (s.link l).up = true) : s.dropLink l = s.linkDown l := if_pos h
/-- With its island the link goes down, and TXD reads 0. -/
theorem State.linkDark_link (h : (s.link l).state = 2 ∨ (s.link l).up = true) : s.linkDark l = { s with fab := (s.linkDark l).fab } ∧
    ((s.linkDark l).link l).state = 4 ∧ ((s.linkDark l).link l).replay = [] ∧ ((s.linkDark l).link l).txBlock = [] := by
  obtain ⟨heq, hstate, hreplay, -⟩ := s.linkDown_link l
  unfold State.linkDark
  dsimp only
  rw [s.dropLink_down l h, State.link_setLink_self]
  exact ⟨by rw [heq]; rfl, hstate, hreplay, rfl⟩
/-- A link's island that is put in reset loses its tests, what its requester asked for, and its link. -/
theorem State.assertReset_linkIsland (hl : l < 16) (hr : (s.island (linkIsland l)).inReset = false) :
    s.assertReset (linkIsland l) = (((((s.setIsland (linkIsland l) { s.island (linkIsland l) with inReset := true }).abandonTests
      fun k => decide (k = linkIsland l)).maskReqs (islandReqs (linkIsland l))).linkDark l).cutInbound l) := by
  have hi : linkIsland l - 26 = l := Nat.add_sub_cancel_left 26 l
  have h26 : 26 ≤ linkIsland l := Nat.le_add_right 26 l
  have h42 : linkIsland l < 42 := by simp only [linkIsland]; omega
  have hmover : ¬ (2 ≤ linkIsland l ∧ linkIsland l < 15) := by omega
  have hport : ¬ (18 ≤ linkIsland l ∧ linkIsland l < 26) := by omega
  simp only [State.assertReset, hr, State.cutIsland, hi, h26, h42, hmover, hport, and_self, if_true, if_false, Bool.false_eq_true]
theorem State.cutInbound_mem : (s.cutInbound l).mem = s.mem := rfl
theorem State.cutInbound_link (m : Nat) : (s.cutInbound l).link m = s.link m := rfl
theorem State.cutInbound_island (i : Nat) : (s.cutInbound l).island i = s.island i := rfl
theorem State.assertReset_link (hl : l < 16) (hr : (s.island (linkIsland l)).inReset = false)
    (h : (s.link l).state = 2 ∨ (s.link l).up = true) :
    (s.assertReset (linkIsland l)).mem = s.mem ∧ ((s.assertReset (linkIsland l)).island (linkIsland l)).inReset = true ∧
    ((s.assertReset (linkIsland l)).link l).state = 4 ∧ ((s.assertReset (linkIsland l)).link l).replay = [] ∧
    ((s.assertReset (linkIsland l)).link l).txBlock = [] := by
  rw [s.assertReset_linkIsland l hl hr]
  obtain ⟨aeq, aisland⟩ := (s.setIsland (linkIsland l) { s.island (linkIsland l) with inReset := true }).abandonTests_eq
    fun k => decide (k = linkIsland l)
  generalize State.abandonTests _ _ = u at *
  have hq := (Quiet.refl u).maskReqs (islandReqs (linkIsland l))
  generalize u.maskReqs _ = v at *
  have hv : v.link l = { s.link l with tx := (v.link l).tx } := by rw [hq.link l, aeq]; rfl
  obtain ⟨deq, dstate, dreplay, dblock⟩ := v.linkDark_link l (by rw [hv]; exact h)
  have hisl : (v.linkDark l).islands = u.islands := by rw [deq, hq.islands]
  rw [State.cutInbound_mem, State.cutInbound_island, State.cutInbound_link]
  refine ⟨?_, ?_, dstate, dreplay, dblock⟩
  · rw [deq, hq.mem, aeq]
    rfl
  · rw [State.island_congr hisl, aisland, State.island_setIsland_self]

/-! ## HAREBELL (R312, R313, R316) -/

/-- After a beacon the link says what the neighbour is, whatever the node floods or asks for then, and the assigner's serial is at most
those heard of. -/
theorem State.learnBeacon_heard (k : Link) (b : Beacon) {t : State} (h : KeepsPeers ((s.setLink l (k.hear b)).learnBeacon b) t) :
    t.link l = { k.hear b with tx := (t.link l).tx } ∧
      (t.link l).state = (if b.node = 4095 ∧ b.nodeState ≠ 1 then 5 else 3) ∧ (t.link l).peerSerial = b.serial ∧
      (t.link l).peerNode = b.node ∧ (t.link l).peerDist = b.rootDist ∧ (t.link l).peerLink = b.link ∧
      t.root ≤ b.serial ∧ (b.rootSerial ∉ s.fab.departed → t.root ≤ b.rootSerial) := by
  obtain ⟨hserial, -, hroot⟩ := (s.setLink l (k.hear b)).learnBeacon_root b
  have hlink := h.link l
  rw [State.learnBeacon_link, State.link_setLink_self] at hlink
  refine ⟨hlink, congrArg Link.state hlink, congrArg Link.peerSerial hlink, congrArg Link.peerNode hlink,
    congrArg Link.peerDist hlink, congrArg Link.peerLink hlink, by rwa [h.root], fun hd => ?_⟩
  rw [h.root]
  exact hroot (show s.fab.departed.contains b.rootSerial = false by simpa using hd)
/-- A link as it comes up: every count at 0, and of what waited only the beacons. -/
def Link.fresh (k : Link) : Link := { k with
  nak := false, rxNumber := 0, rxBytes := [], rx := [], freed := [], txNumber := 0, replay := [], resend := none
  tx := k.tx.filter fun f => f.type = 1, txBytes := [], txCounted := false, spent := [], peerFreed := [], sinceMgmt := 15 }
theorem State.harebell_trained (b : Beacon) (hc : s.canTrain l = true) (h : (s.link l).state = 2) : s.harebell l b =
    if s.fab.nodeState = 0 then ((s.setLink l ((s.link l).fresh.hear b)).learnBeacon b).floodAdvert.askId
    else ((s.setLink l ((s.link l).fresh.hear b)).learnBeacon b).floodAdvert := by
  simp only [State.harebell, hc, h, Link.fresh, Bool.not_true, Bool.false_eq_true, if_false, if_true]
theorem State.harebell_trained_keepsPeers (b : Beacon) (hc : s.canTrain l = true) (h : (s.link l).state = 2) :
    KeepsPeers ((s.setLink l ((s.link l).fresh.hear b)).learnBeacon b) (s.harebell l b) := by
  rw [s.harebell_trained l b hc h]
  split
  · exact (State.floodAdvert_keepsPeers _).trans (State.askId_keepsPeers _)
  · exact State.floodAdvert_keepsPeers _
theorem State.harebell_up (b : Beacon) (hc : s.canTrain l = true) (h : (s.link l).up = true) :
    s.harebell l b = (s.setLink l ((s.link l).hear b)).learnBeacon b := by
  have h2 : (s.link l).state ≠ 2 := by
    simp only [Link.up, decide_eq_true_eq] at h
    omega
  simp [State.harebell, hc, h2, h]

theorem State.harebellSend_eq (hc : s.canTrain l = true) (h : (s.link l).state = 2 ∨ (s.link l).up = true) : s.harebellSend l =
    (s.setLink l { s.link l with
      beacons := ((s.link l).beacons + 1) % 10
      errs := if ((s.link l).beacons + 1) % 10 = 0 then 0 else (s.link l).errs }).queueFrame l (beaconFrame (s.beaconNow l) s.nodeNum) :=
  if_pos ⟨hc, h⟩

/-! ## The obligation -/

theorem linksTrainComeUpAndGoDown : Claims.LinksTrainComeUpAndGoDown := by
  intro l s
  refine ⟨fun hc h => congrArg Host.Outcome.next (s.linkLock_trains l hc h), fun h => congrArg Host.Outcome.next (s.linkLock_keeps l h),
    fun b hc hb => ⟨fun hl => congrArg Host.Outcome.next (State.linkBlock_noLock hc hb hl), fun hl h => ?step1⟩,
    fun b hc => ⟨fun h => ?trained, fun h => ?up⟩, fun hc h => ?beaconOut, fun h => ⟨fun hl hr hg => ?lockLoss, ?timeout⟩⟩
  case step1 =>
    have hblock := State.linkBlock_step1 hc hb hl h
    refine ⟨fun hg => ?_, fun hg hn => ?_, fun hg hn => ?_⟩
    · exact congrArg Host.Outcome.next (hblock.trans (if_pos hg))
    · rw [if_neg (by simp [hg]), if_pos (by omega)] at hblock
      exact congrArg Host.Outcome.next hblock
    · rw [if_neg (by simp [hg]), if_neg (by omega)] at hblock
      obtain ⟨hstate, herrs, -⟩ := ({ s.link l with state := 2, good := 0, errs := 0, beacons := 0 } : Link).send_keeps
      refine ⟨_, congrArg Host.Outcome.next hblock, rfl, ?_, ?_⟩
      · rw [State.link_setLink_self, hstate]
      · rw [State.link_setLink_self, herrs]
  case trained =>
    obtain ⟨hlink, hheard⟩ := s.learnBeacon_heard l _ b (s.harebell_trained_keepsPeers l b hc h)
    exact ⟨s.harebell l b, rfl, hheard, congrArg Link.rxNumber hlink, congrArg Link.txNumber hlink, congrArg Link.replay hlink⟩
  case up =>
    have hup := s.harebell_up l b hc h
    have hk : KeepsPeers ((s.setLink l ((s.link l).hear b)).learnBeacon b) (s.harebell l b) := hup ▸ .of_links rfl rfl
    obtain ⟨hlink, hheard⟩ := s.learnBeacon_heard l _ b hk
    refine ⟨s.harebell l b, rfl, ?_, hheard, (congrArg Link.rxNumber hlink :)⟩
    rw [hup, State.learnBeacon_eq]
    rfl
  case beaconOut =>
    refine ⟨_, congrArg Host.Outcome.next (s.harebellSend_eq l hc h), rfl, ?_, ?_⟩
    · simp [State.queueFrame]
    · simp [State.queueFrame]
  case lockLoss =>
    obtain ⟨hmem, hreset, hstate, hreplay, hblock⟩ := s.assertReset_link l hl hr h
    have ht : s.lockLost l = (s.assertReset (linkIsland l)).setLink l
        { (s.assertReset (linkIsland l)).link l with lock := false, good := 0 } := by
      simp [State.lockLost, hl, hg]
    refine ⟨_, congrArg Host.Outcome.next ht, hmem, hreset, ?_⟩
    rw [State.link_setLink_self]
    exact ⟨hstate, rfl, hreplay, hblock⟩
  case timeout =>
    refine ⟨_, congrArg Host.Outcome.next (congrArg (State.awaitLock · l) (s.dropLink_down l h)), ?_⟩
    exact s.linkDown_awaitLock l

/-! ## Blocks (R300 to R302) -/

section
variable {own : Option Nat} {k : Link} {b : List Byte}

theorem Link.receive_bad (hb : blockGood b = false) :
    k.receive own b = { k with crcErrors := satAdd u32Max k.crcErrors 1, errs := k.errs + 1, nak := k.up } := by
  simp [Link.receive, hb]
/-- A good block's trailer is taken in first; its frame bytes are accepted where its NUMBER is the next. -/
theorem Link.receive_good (hk : k.up = true) (hb : blockGood b = true) : k.receive own b =
    if bitOf (fieldAt b 0x3F0 2) 13 = true then k.trailerIn b
    else if fieldAt b 0x3F0 2 % 4096 = (k.rxNumber + 1) % 4096 then (k.trailerIn b).accept own (fieldAt b 0x3F0 2 % 4096) b
    else { k.trailerIn b with nak := true } := by
  simp [Link.receive, hb, hk]

end

theorem linkBlocksAreAcceptedInOrder : Claims.LinkBlocksAreAcceptedInOrder := by
  refine ⟨fun l b s hc hb hl h => ?_, fun own k b hk =>
    ⟨fun hb => ?bad, fun hb hi => ?idle, fun hb hi hn => ?next, fun hb hi hn => ?gap⟩⟩
  · have hblock := State.linkBlock_received hc hb hl h
    refine ⟨fun hlim => ?_, fun h0 hlim => ?_⟩
    · exact congrArg Host.Outcome.next (hblock.trans (if_neg (by omega)))
    · obtain ⟨heq, hstate, hreplay⟩ := (s.setLink l ((s.link l).receive s.fab.nodeId b)).linkDown_awaitLock l
      exact ⟨_, congrArg Host.Outcome.next (hblock.trans (if_pos ⟨h0, hlim⟩)), heq, hstate.trans (if_pos hc), hreplay⟩
  all_goals obtain ⟨hnum, hnak, hrx⟩ := k.trailerIn_keeps b
  case bad =>
    rw [Link.receive_bad hb]
    exact ⟨rfl, rfl, hk, rfl, rfl⟩
  case idle =>
    rw [Link.receive_good hk hb, if_pos hi]
    exact ⟨hnum, hnak, hrx⟩
  case next =>
    rw [Link.receive_good hk hb, if_neg (by simp [hi]), if_pos hn]
    exact Link.accept_number _ _ _ _
  case gap =>
    rw [Link.receive_good hk hb, if_neg (by simp [hi]), if_neg hn]
    exact ⟨hnum, rfl, hrx⟩

/-- Settles O45: a link's state decides what becomes of a lock, a block and a beacon; what the node floods, asks and sends then leaves
its links but for the frames that wait; and a link that goes down is down whatever brought it there. -/
theorem linksTrainAndAcceptBlocks : Obligations.LinksTrainAndAcceptBlocks :=
  ⟨linksTrainComeUpAndGoDown, linkBlocksAreAcceptedInOrder⟩

end Sys2Proof.Machine
end

section
/-! PROOFS. The nodes (R303, R305, R311, R316 to R322, R328): adverts, identifiers, routes, and frames for other nodes. -/
namespace Sys2Proof.Machine

variable (s : State) (l : Nat) (f : Frame)

/-! ## What stays when frames are taken, kept and passed on -/

/-- t is s but for the fabric. -/
def OnlyFab (s t : State) : Prop := t = { s with fab := t.fab }
/-- t is s but for its links. -/
def OnlyLinks (s t : State) : Prop := t = { s with fab := { s.fab with links := t.fab.links } }
/-- t is s but for its links, the adverts it holds and who has departed. -/
def OnlyAdverts (s t : State) : Prop :=
  t = { s with fab := { s.fab with links := t.fab.links, adverts := t.fab.adverts, departed := t.fab.departed } }

section
variable {s} {t u : State}

theorem OnlyFab.trans (h : OnlyFab s t) (k : OnlyFab t u) : OnlyFab s u := by
  unfold OnlyFab at *
  rw [k, h]
theorem OnlyLinks.onlyFab (h : OnlyLinks s t) : OnlyFab s t := by
  unfold OnlyLinks OnlyFab at *
  rw [h]
theorem OnlyLinks.onlyAdverts (h : OnlyLinks s t) : OnlyAdverts s t := by
  unfold OnlyLinks OnlyAdverts at *
  rw [h]
theorem OnlyAdverts.onlyFab (h : OnlyAdverts s t) : OnlyFab s t := by
  unfold OnlyAdverts OnlyFab at *
  rw [h]
theorem OnlyAdverts.trans (h : OnlyAdverts s t) (k : OnlyAdverts t u) : OnlyAdverts s u := by
  unfold OnlyAdverts at *
  rw [k, h]

end

theorem State.takeRx_onlyLinks : OnlyLinks s (s.takeRx f) := s.takeRx_eq f
theorem State.countDrop_onlyLinks : OnlyLinks s (s.countDrop l) := rfl
theorem State.countDrop_dropped : ((s.countDrop l).link l).dropped = satAdd u32Max (s.link l).dropped 1 := by
  rw [State.countDrop, State.link_setLink_self]
theorem State.keepAdvert_onlyAdverts (a : Advert) : OnlyAdverts s (s.keepAdvert a) := rfl
theorem State.floodAdvert_onlyFab : OnlyFab s s.floodAdvert := by
  obtain ⟨t, ht, -, hs⟩ := s.floodAdvert_sends
  exact OnlyFab.trans ht (OnlyLinks.onlyFab hs.eq)

/-! ## Frames of the management lane that are passed on (R303, R305) -/

section
variable {f} {send : State → Frame → State}

theorem State.passOn_hop (h : f.hops ≠ 0) : s.passOn l f send = send s { f with hops := f.hops - 1 } := if_neg h
theorem State.passOn_drop (h : f.hops = 0) : s.passOn l f send = s.countDrop l := if_pos h
theorem State.passOn_dropped (h : f.hops = 0) : ((s.passOn l f send).link l).dropped = satAdd u32Max (s.link l).dropped 1 := by
  rw [s.passOn_drop l h, State.countDrop_dropped]
theorem State.passOn_onlyLinks (hs : ∀ g, Sends s (send s g)) : OnlyLinks s (s.passOn l f send) := by
  by_cases h : f.hops = 0
  · rw [s.passOn_drop l h]
    exact s.countDrop_onlyLinks l
  · rw [s.passOn_hop l h]
    exact (hs _).eq

end

/-- A frame that is passed on by one link. -/
theorem State.passOn_queue (m : Nat) :
    OnlyLinks s (s.passOn l f fun t g => t.queueFrame m g) ∧
    (f.hops ≠ 0 → ((s.passOn l f fun t g => t.queueFrame m g).link m).tx.getLast? = some { f with hops := f.hops - 1 }) := by
  refine ⟨s.passOn_onlyLinks l fun g => (Sends.refl s).queueFrame m g, fun h => ?_⟩
  rw [s.passOn_hop l h, State.queueFrame_last]
/-- A frame that is passed on by every up link but the one it came on. -/
theorem State.passOn_flood :
    OnlyLinks s (s.passOn l f fun t g => t.sendAdvert g (some l)) ∧
    (f.hops ≠ 0 → ∀ m, m ≠ l → (s.link m).up = true →
      ((s.passOn l f fun t g => t.sendAdvert g (some l)).link m).tx.getLast? = some { f with hops := f.hops - 1 }) := by
  refine ⟨s.passOn_onlyLinks l fun g => (Sends.refl s).sendAdvert g _, fun h m hm hup => ?_⟩
  rw [s.passOn_hop l h, s.sendAdvert_last _ _ m (by simpa using Ne.symm hm) hup]

/-! ## ADVERT_SEND and ADVERT (R319 to R321) -/

variable (a : Advert)

theorem State.floodAdvert_silent (h : s.ctl.mode = .halt ∨ s.fab.nodeState = 2) : s.floodAdvert = s := if_pos h.symm
/-- The advert that goes out takes the next ADVERT_SEQ, is held as the node's own, and goes out on every up link. -/
theorem State.floodAdvert_sent (hm : s.ctl.mode ≠ .halt) (hn : s.fab.nodeState ≠ 2) :
    s.floodAdvert.fab.advertSeq = (s.fab.advertSeq + 1) % 2 ^ 32 ∧
    (s.floodAdvert.fab.adverts.find? fun e => e.1 = s.ownSerial).map (·.2) = some (s.advertNow s.fab.advertSeq) ∧
    ∀ m, (s.link m).up = true → (s.floodAdvert.link m).tx.getLast? = some (advertFrame (s.advertNow s.fab.advertSeq) s.nodeNum) := by
  obtain ⟨t, ht, hs, hsend⟩ := s.floodAdvert_eq hn hm
  have hlink (m : Nat) : t.link m = s.link m := by rw [ht]; rfl
  refine ⟨?_, ?_, fun m hup => ?_⟩
  · rw [hs.eq, ht]
  · rw [hs.eq, ht]
    exact Tab.find_insert _ _ _
  · rw [hsend, State.sendAdvert_last _ _ _ m (by simp) (by rwa [hlink])]
theorem State.floodAdvert_seq (hm : s.ctl.mode ≠ .halt) : s.floodAdvert.fab.advertSeq =
    if s.fab.nodeState = 2 then s.fab.advertSeq else (s.fab.advertSeq + 1) % 2 ^ 32 := by
  split
  case isTrue h => rw [s.floodAdvert_silent (.inr h)]
  case isFalse h => exact (s.floodAdvert_sent hm h).1

section
variable {s l a} (hm : s.ctl.mode ≠ .halt) (hup : (s.link l).up = true)
include hm hup

/-- The node's own advert from before a reset takes ADVERT_SEQ beyond it. -/
theorem State.advertIn_own (h : a.serial = s.ownSerial) : s.advertIn l a =
    if s.fab.advertSeq ≤ a.seq then ((s.takeRx (s.rxFrame (advertFrame a a.node))).passSeq a.seq).floodAdvert
    else s.takeRx (s.rxFrame (advertFrame a a.node)) := by
  simp [State.advertIn, hm, hup, h]
/-- Another node's advert is kept and passed on where it is newer, and then it is seen whether it is in conflict with this node. -/
theorem State.advertIn_other (h : a.serial ≠ s.ownSerial) : s.advertIn l a =
    if s.newerAdvert a = false then (s.takeRx (s.rxFrame (advertFrame a a.node))).meetConflict a
    else if s.forwards = true then
      (((s.takeRx (s.rxFrame (advertFrame a a.node))).keepAdvert a).passOn l (s.rxFrame (advertFrame a a.node))
        fun t g => t.sendAdvert g (some l)).meetConflict a
    else ((s.takeRx (s.rxFrame (advertFrame a a.node))).keepAdvert a).meetConflict a := by
  simp [State.advertIn, hm, hup, h]

end

/-- What an advert of another node comes to before its conflict is seen: v. -/
structure AdvertTaken (s : State) (l : Nat) (a : Advert) (v : State) : Prop where
  eq : s.advertIn l a = v.meetConflict a
  only : OnlyAdverts s v
  kept : s.newerAdvert a = true → (v.fab.adverts.find? fun e => e.1 = a.serial).map (·.2) = some a
  old : s.newerAdvert a = false → v.fab.adverts = s.fab.adverts
  passed : s.newerAdvert a = true → s.forwards = true → v =
    ((s.takeRx (s.rxFrame (advertFrame a a.node))).keepAdvert a).passOn l (s.rxFrame (advertFrame a a.node))
      fun t g => t.sendAdvert g (some l)

theorem State.advertIn_taken (hm : s.ctl.mode ≠ .halt) (hup : (s.link l).up = true) (h : a.serial ≠ s.ownSerial) :
    ∃ v, AdvertTaken s l a v := by
  have hin := State.advertIn_other hm hup h
  have htake := (s.takeRx_onlyLinks (s.rxFrame (advertFrame a a.node))).onlyAdverts
  have hkeep := htake.trans (State.keepAdvert_onlyAdverts _ a)
  by_cases hnew : s.newerAdvert a = true
  · have hnf : s.newerAdvert a ≠ false := by simp [hnew]
    rw [if_neg hnf] at hin
    by_cases hf : s.forwards = true
    · rw [if_pos hf] at hin
      obtain ⟨hpass, -⟩ := ((s.takeRx (s.rxFrame (advertFrame a a.node))).keepAdvert a).passOn_flood l
        (s.rxFrame (advertFrame a a.node))
      refine ⟨_, hin, hkeep.trans hpass.onlyAdverts, fun _ => ?_, fun e => absurd e hnf, fun _ _ => rfl⟩
      rw [hpass]
      exact Tab.find_insert _ _ _
    · rw [if_neg hf] at hin
      exact ⟨_, hin, hkeep, fun _ => Tab.find_insert _ _ _, fun e => absurd e hnf, fun _ e => absurd e hf⟩
  · rw [if_pos (by simpa using hnew)] at hin
    refine ⟨_, hin, htake, fun e => absurd e hnew, fun _ => ?_, fun e => absurd e hnew⟩
    rw [State.takeRx_eq]

theorem OnlyFab.meetConflict {s v : State} (h : OnlyFab s v) :
    v.meetConflict a = { s with fab := (v.meetConflict a).fab, ctl := (v.meetConflict a).ctl } := by
  rw [State.meetConflict_eq, h]
theorem State.meetConflict_adverts : (s.meetConflict a).fab.adverts = s.fab.adverts := by rw [State.meetConflict_eq]
theorem State.meetConflict_link (m : Nat) : (s.meetConflict a).link m = s.link m := by
  rw [State.meetConflict_eq]
  rfl
/-- A node that takes an advert in is in conflict where one of a lower serial has its identifier. -/
theorem AdvertTaken.conflict {s : State} {l : Nat} {a : Advert} {v : State} (h : AdvertTaken s l a v) (h1 : s.fab.nodeState = 1)
    (h2 : s.fab.nodeId = some a.node) (h3 : a.serial < s.ownSerial) : (v.meetConflict a).fab.nodeState = 3 := by
  refine v.meetConflict_state a ?_ ?_ ?_
  · rw [h.only]
    exact h1
  · rw [h.only]
    exact h2
  · rw [h.only]
    exact h3

theorem advertsAreKeptByTheirSequence : Claims.AdvertsAreKeptByTheirSequence := by
  intro l a s
  refine ⟨fun hm hn => ⟨_, rfl, s.floodAdvert_onlyFab, s.floodAdvert_sent hm hn⟩,
    fun h => congrArg Host.Outcome.next (s.floodAdvert_silent h), fun hm hup hs => ?other, fun hm hup hs => ?own,
    fun h => congrArg Host.Outcome.next (if_pos (by simpa using h))⟩
  case other =>
    obtain ⟨v, hv⟩ := s.advertIn_taken l a hm hup hs
    have hexec : exec (.advert l a) s = .next (v.meetConflict a) := congrArg Host.Outcome.next hv.eq
    have hfab := hv.only.onlyFab.meetConflict a
    refine ⟨fun hnew => ⟨_, hexec, hfab, ?_, fun hf hh m hml hmup => ?_, fun hf hh => ?_⟩, fun e he hseq => ⟨_, hexec, hfab, ?_⟩,
      fun h1 h2 h3 => ⟨_, hexec, hfab, hv.conflict h1 h2 h3⟩⟩
    · rw [State.meetConflict_adverts]
      exact hv.kept hnew
    · rw [State.meetConflict_link, hv.passed hnew hf]
      exact (State.passOn_flood _ l _).2 hh m hml hmup
    · rw [State.meetConflict_link, hv.passed hnew hf, State.passOn_dropped _ l hh]
      rfl
    · rw [State.meetConflict_adverts]
      refine hv.old ?_
      simpa [State.newerAdvert, he] using hseq
  case own =>
    have hin := State.advertIn_own hm hup hs
    have htake := s.takeRx_onlyLinks (s.rxFrame (advertFrame a a.node))
    generalize s.takeRx (s.rxFrame (advertFrame a a.node)) = u at *
    refine ⟨fun h => congrArg Host.Outcome.next (hin.trans (if_neg (by omega))), fun h =>
      ⟨_, congrArg Host.Outcome.next (hin.trans (if_pos h)), ?_, ?_⟩⟩
    · have hpass : OnlyFab u (u.passSeq a.seq) := rfl
      exact (htake.onlyFab.trans hpass).trans (State.floodAdvert_onlyFab _)
    · have hmode : (u.passSeq a.seq).ctl.mode ≠ .halt := by
        rw [htake]
        exact hm
      have hstate : (u.passSeq a.seq).fab.nodeState = s.fab.nodeState := by
        rw [htake]
        rfl
      have hseq : (u.passSeq a.seq).fab.advertSeq = (a.seq + 1) % 2 ^ 32 := rfl
      rw [State.floodAdvert_seq _ hmode, hstate, hseq]
      split
      · rfl
      · omega

/-! ## Identifiers (R316 to R320) -/

theorem Tab.find_insert_pair {α : Type} (k : Nat) (v : α) (t : Tab α) :
    ((Tab.insert k v t).find? fun e => e.1 = k) = some (k, v) := by
  obtain ⟨⟨i, w⟩, he, rfl⟩ := Option.map_eq_some_iff.mp (Tab.find_insert k v t)
  have hi : i = k := by simpa using List.find?_some he
  rw [he, hi]

/-- What the node knows of the links that requests came in on changes by r. -/
def State.modReturns (r : Tab Nat → Tab Nat) : State := { s with fab := { s.fab with returns := r s.fab.returns } }
theorem State.modReturns_onlyFab (r : Tab Nat → Tab Nat) : OnlyFab s (s.modReturns r) := rfl
/-- A frame of ASSIGN is taken from its buffer, and passed on by link m. -/
def State.passTaken (r : Tab Nat → Tab Nat) (m : Nat) : State :=
  ((s.takeRx f).modReturns r).passOn l f fun t g => t.queueFrame m g
theorem State.passTaken_passes (r : Tab Nat → Tab Nat) (m : Nat) :
    (f.hops ≠ 0 → ((s.passTaken l f r m).link m).tx.getLast? = some { f with hops := f.hops - 1 }) ∧
    (f.hops = 0 → ((s.passTaken l f r m).link l).dropped = satAdd u32Max ((s.takeRx f).link l).dropped 1) :=
  ⟨(State.passOn_queue _ l f m).2, fun h => State.passOn_dropped _ l h⟩
theorem State.passTaken_returns (r : Tab Nat → Tab Nat) (m : Nat) :
    OnlyFab s (s.passTaken l f r m) ∧ (s.passTaken l f r m).fab.returns = r s.fab.returns := by
  have htake := s.takeRx_onlyLinks f
  have hpass := (((s.takeRx f).modReturns r).passOn_queue l f m).1
  refine ⟨(htake.onlyFab.trans (State.modReturns_onlyFab _ r)).trans hpass.onlyFab, ?_⟩
  calc (s.passTaken l f r m).fab.returns
    _ = r (s.takeRx f).fab.returns := (congrArg (·.fab.returns) hpass :)
    _ = r s.fab.returns := (congrArg (r ·.fab.returns) htake :)

section
variable {s} (serial preferred node st : Nat)

theorem State.forwards_mode (h : s.forwards = true) : s.ctl.mode ≠ .halt := by
  simp only [State.forwards, Bool.and_eq_true] at h
  obtain ⟨⟨hmode, -⟩, -⟩ := h
  simpa using hmode
/-- The assigner's answer to a request. -/
theorem State.assignRequest_root (hf : s.forwards = true) (hr : s.isRoot = true) : s.assignRequest l serial preferred =
    ((s.takeRx (s.rxFrame (assignFrame false serial preferred 4095))).give serial (s.idFor serial preferred)).queueFrame l
      (assignFrame true serial (assignNode (s.idFor serial preferred)) s.nodeNum) := by
  simp [State.assignRequest, hf, hr]
/-- Any other node keeps the link for the answer, and passes the request on toward the root. -/
theorem State.assignRequest_child {e : Nat × Link} (hf : s.forwards = true) (hr : s.isRoot = false) (hp : s.parentLink = some e) :
    s.assignRequest l serial preferred =
      s.passTaken l (s.rxFrame (assignFrame false serial preferred 4095)) (Tab.insert serial l) e.1 := by
  simp [State.assignRequest, State.passTaken, State.modReturns, hf, hr, hp]
/-- An answer for a node whose request came through this one goes back by its link. -/
theorem State.assignAnswer_back {e : Nat × Nat} (hf : s.forwards = true) (hs : serial ≠ s.ownSerial)
    (he : (s.fab.returns.find? fun e => e.1 = serial) = some e) : s.assignAnswer l serial node st =
      s.passTaken l (s.rxFrame (assignFrame true serial (node % 4096 + st * 4096) s.rootNode)) (Tab.erase serial) e.2 := by
  simp [State.assignAnswer, State.passTaken, State.modReturns, hf, hs, he, State.forwards_mode hf]
theorem State.assignAnswer_own (hm : s.ctl.mode ≠ .halt) (hn : s.fab.nodeState = 0 ∨ s.fab.nodeState = 2) :
    s.assignAnswer l s.ownSerial node st =
      (s.takeRx (s.rxFrame (assignFrame true s.ownSerial (node % 4096 + st * 4096) s.rootNode))).takeId
        (if st = 2 then none else some (node % 4096)) := by
  simp only [State.assignAnswer, hm, hn, if_false, if_true]
theorem State.askId_child {e : Nat × Link} (hr : s.isRoot = false) (hp : s.parentLink = some e) :
    s.askId = s.queueFrame e.1 (assignFrame false s.ownSerial (s.obj 0x6001 0) s.nodeNum) := by
  simp [State.askId, hr, hp]
theorem State.askId_root (hr : s.isRoot = true) :
    s.askId = (s.give s.ownSerial (s.idFor s.ownSerial (s.obj 0x6001 0))).takeId (s.idFor s.ownSerial (s.obj 0x6001 0)) := by
  simp [State.askId, hr]

end

theorem State.give_onlyFab (n : Nat) (id : Option Nat) : OnlyFab s (s.give n id) := by
  unfold OnlyFab
  rw [State.give_eq]
theorem State.give_some_mem (serial n : Nat) : (serial, n) ∈ (s.give serial (some n)).fab.assigned := by simp [State.give]
/-- ID_HOLD has passed for a node that no advert is held of. -/
theorem State.holdExpires_frees (serial : Nat) (h0 : s.obj 0x6005 0 ≠ 0) (hr : s.isRoot = true) (hs : serial ≠ s.ownSerial)
    (ha : ∀ e ∈ s.fab.adverts, e.1 ≠ serial) :
    s.holdExpires serial = { s with fab := { s.fab with assigned := s.fab.assigned.filter fun e => e.1 ≠ serial } } := by
  refine if_neg ?_
  simp only [h0, hr, hs, List.any_eq_true, decide_eq_true_eq, Bool.not_true, Bool.false_eq_true, false_or, not_exists, not_and]
  exact ha

theorem identifiersAreAssignedAndReleased : Claims.IdentifiersAreAssignedAndReleased := by
  intro l serial preferred node s
  refine ⟨fun hf => ⟨fun hr => ?root, fun e hr hp => ?child, fun e st hs he => ?back⟩,
    fun hm hn => ⟨?taken, ?full⟩, fun hm hn => ⟨fun e hr hp => ?asks, fun n hr hid => ?gives⟩,
    fun h0 hr hs ha => ⟨_, congrArg Host.Outcome.next (s.holdExpires_frees serial h0 hr hs ha), rfl, rfl⟩⟩
  case root =>
    have htake := (s.takeRx_onlyLinks (s.rxFrame (assignFrame false serial preferred 4095))).onlyFab
    refine ⟨_, congrArg Host.Outcome.next (State.assignRequest_root l serial preferred hf hr), ?_, fun n hid => ?_, ?_⟩
    · exact (htake.trans (State.give_onlyFab _ serial _)).trans (OnlyLinks.onlyFab rfl)
    · rw [hid]
      exact State.give_some_mem _ serial n
    · rw [State.queueFrame_last]
  case child =>
    obtain ⟨honly, hret⟩ := s.passTaken_returns l (s.rxFrame (assignFrame false serial preferred 4095)) (Tab.insert serial l) e.1
    refine ⟨_, congrArg Host.Outcome.next (State.assignRequest_child l serial preferred hf hr hp), honly, ?_, s.passTaken_passes l _ _ _⟩
    rw [hret, Tab.find_insert_pair]
  case back =>
    exact ⟨_, congrArg Host.Outcome.next (State.assignAnswer_back l serial node st hf hs he), (s.passTaken_returns l _ _ _).1,
      s.passTaken_passes l _ _ _⟩
  case taken =>
    obtain ⟨hmem, hid, hstate⟩ := (s.takeRx (s.rxFrame (assignFrame true s.ownSerial (node % 4096 + 1 * 4096) s.rootNode))).takeId_some
      (node % 4096)
    refine ⟨_, congrArg Host.Outcome.next (State.assignAnswer_own l node 1 hm hn), hmem.trans ?_, hid, hstate⟩
    rw [State.takeRx_eq]
  case full =>
    obtain ⟨heq, hid, hstate⟩ := (s.takeRx (s.rxFrame (assignFrame true s.ownSerial (node % 4096 + 2 * 4096) s.rootNode))).takeId_none
    refine ⟨_, congrArg Host.Outcome.next (State.assignAnswer_own l node 2 hm hn), ?_, hid, hstate⟩
    rw [if_pos rfl, heq, State.takeRx_eq]
  case asks => exact congrArg Host.Outcome.next ((if_pos ⟨hn, hm⟩).trans (State.askId_child hr hp))
  case gives =>
    have hask := State.askId_root hr
    rw [hid] at hask
    obtain ⟨hmem, hnode, hstate⟩ := (s.give s.ownSerial (some n)).takeId_some n
    exact ⟨_, congrArg Host.Outcome.next ((if_pos ⟨hn, hm⟩).trans hask), hmem, hnode, hstate⟩

/-! ## Routes (R316, R322) -/

/-- Routes do not rest on who has departed, nor on the identifiers given. -/
theorem State.routesNow_congr (d : List Nat) (g : List (Nat × Nat)) :
    ({ s with fab := { s.fab with departed := d, assigned := g } } : State).routesNow = s.routesNow := rfl

/-- ROUTE_RECOMPUTE wakes what waited for a route once adverts, assigner and routes are replaced. -/
theorem State.recompute_fab : s.recompute.mem = s.mem ∧ s.recompute.fab.adverts = s.stillPresent ∧
    s.recompute.fab.rootSerial = s.rootNow s.stillPresent ∧
    s.recompute.fab.departed = (if s.rootGone s.stillPresent then s.root :: s.fab.departed else s.fab.departed) ∧
    s.recompute.fab.routes =
      ({ s with fab := { s.fab with adverts := s.stillPresent, rootSerial := s.rootNow s.stillPresent } } : State).routesNow := by
  unfold State.recompute
  dsimp only
  generalize hu : ({ s with fab := _ } : State) = u
  have hq := u.wakeRoutes_quiet
  rw [hq.fab, hq.mem, ← hu]
  refine ⟨rfl, rfl, rfl, rfl, ?_⟩
  exact State.routesNow_congr { s with fab := { s.fab with adverts := s.stillPresent, rootSerial := s.rootNow s.stillPresent } }
    (if s.rootGone s.stillPresent then s.root :: s.fab.departed else s.fab.departed) _

/-! ## FRAME_FORWARD and ESCAPE_WAIT (R303, R305, R311, R328) -/

section
variable {s f} (hm : s.ctl.mode ≠ .halt) (hd : s.fab.nodeId ≠ some f.dest) (hr : routable f = true)
include hm hd hr

theorem State.forward_drops (h : frameTypeKnown f.type = false ∨ f.hops = 0) : s.forward l f = (s.takeRx f).countDrop l := by
  simp [State.forward, hm, hd, hr, h]

variable (hk : frameTypeKnown f.type = true) (hh : f.hops ≠ 0)
include hk hh

theorem State.forward_stops (hf : s.forwards = false) : s.forward l f = s.takeRx f := by
  simp [State.forward, hm, hd, hr, hk, hh, hf]
theorem State.forward_routes (hf : s.forwards = true) (hv : f.vl ≠ 3) (hroute : s.routed f.dest = true) :
    s.forward l f = (s.takeRx f).queueFrame (s.outLink f.dest) { f with hops := f.hops - 1 } := by
  simp [State.forward, hm, hd, hr, hk, hh, hf, hv, hroute]
theorem State.forward_climbs {m : Nat} {g : Frame} (hf : s.forwards = true) (hv : f.vl = 3)
    (ht : (s.takeRx f).treeHop f = some (m, g)) : s.forward l f = (s.takeRx f).queueFrame m g := by
  simp [State.forward, hm, hd, hr, hk, hh, hf, hv, ht]

end

section
variable {s f}

/-- A tree hop sends the frame on the escape lane, with DOWN as its way needs it, and nothing else changed. -/
theorem State.treeHop_frame {m : Nat} {g : Frame} (h : s.treeHop f = some (m, g)) : g = { f with vl := 3, down := g.down } := by
  unfold State.treeHop at h
  split at h
  · obtain ⟨l, -, hl⟩ := Option.map_eq_some_iff.mp h
    obtain ⟨-, rfl⟩ := Prod.mk.inj hl
    rfl
  · split at h
    · cases h
    · obtain ⟨e, -, he⟩ := Option.map_eq_some_iff.mp h
      obtain ⟨-, rfl⟩ := Prod.mk.inj he
      rfl
theorem State.escape_moves {m : Nat} {g : Frame} (htx : (s.link l).tx.contains f = true) (hv : f.vl ≠ 3) (hr : routable f = true)
    (hc : (s.link l).canSend f = false) (ht : s.treeHop f = some (m, g)) (hg : (s.link m).canSend g = true) :
    s.escape l f = (s.setLink l { s.link l with tx := (s.link l).tx.erase f }).queueFrame m g := by
  simp only [State.escape, htx, hv, hr, hc, ht, hg, Bool.not_true, Bool.false_eq_true, or_self, if_false, if_true]

end

theorem framesAreForwardedByTheRouteTable : Claims.FramesAreForwardedByTheRouteTable := by
  intro l f s
  refine ⟨⟨_, rfl, s.recompute_fab⟩, fun hm hd hr => ?forward, fun m g htx hv hr hc ht hg => ?escape⟩
  case forward =>
    refine ⟨fun h => congrArg Host.Outcome.next (State.forward_drops l hm hd hr h),
      fun hk hh hf => congrArg Host.Outcome.next (State.forward_stops l hm hd hr hk hh hf), fun hk hh hf =>
      ⟨fun hv hroute => congrArg Host.Outcome.next (State.forward_routes l hm hd hr hk hh hf hv hroute), fun m g hv ht => ?_⟩⟩
    have hqueue : OnlyFab (s.takeRx f) ((s.takeRx f).queueFrame m g) := rfl
    have hg := State.treeHop_frame ht
    rw [← hv] at hg
    exact ⟨_, congrArg Host.Outcome.next (State.forward_climbs l hm hd hr hk hh hf hv ht),
      (s.takeRx_onlyLinks f).onlyFab.trans hqueue, hg, State.queueFrame_last _ _ _⟩
  case escape =>
    refine ⟨_, congrArg Host.Outcome.next (State.escape_moves l htx hv hr hc ht hg), rfl, ?_, fun hml => ?_, ?_⟩
    · rw [State.treeHop_frame ht]
    · rw [State.queueFrame_link _ _ _ _ (Ne.symm hml), State.link_setLink_self]
    · simp only [State.queueFrame, State.link_setLink_self, State.link_setLink]
      by_cases h : m = l
      · rw [if_pos h.symm, if_pos h]
      · rw [if_neg (Ne.symm h), if_neg h]

/-- Settles O46: an advert is taken, kept and passed on before its conflict is seen; a frame of the management lane is passed on or
counted, whatever it is sent on by; and a tree hop changes of a frame its lane and DOWN alone. -/
theorem nodesAdvertiseAssignAndForward : Obligations.NodesAdvertiseAssignAndForward :=
  ⟨advertsAreKeptByTheirSequence, identifiersAreAssignedAndReleased, framesAreForwardedByTheRouteTable⟩

end Sys2Proof.Machine
end

section
/-! PROOFS. Every command answers a next state but the loss of CLK_CTL, and an empty queue idles (R339; assumption log 3). -/
namespace Sys2Proof.Machine

theorem exec_clockLost (i : Nat) (s : State) (h : i ≠ 0) : exec (.clockLost i) s = .next (s.clockGone i) := if_neg h

/-- Every command's meaning is a next state; CLOCK_LOST's is one where the island is not CTL. -/
theorem everyCommandAnswersANextState : Claims.EveryCommandAnswersANextState := by
  intro c s h
  cases c with
  | clockLost i => exact ⟨_, exec_clockLost i s fun e => h (congrArg Instr.clockLost e)⟩
  | _ => exact ⟨_, rfl⟩
theorem stepIdlesOnAnEmptyQueue : Claims.StepIdlesOnAnEmptyQueue := by
  intro s h
  unfold step
  rw [h]

/-- Settles O5: each command's meaning is a next state by its own equation, and CLOCK_LOST asks first whether the island is CTL. -/
theorem everyCommandAnswersAndIdleStepsStay : Obligations.EveryCommandAnswersAndIdleStepsStay :=
  ⟨stepIdlesOnAnEmptyQueue, everyCommandAnswersANextState, fun _ => rfl⟩

end Sys2Proof.Machine
end

section
/-! PROOFS. What stays while the ports, lanes, links and stash ports of an island are cut off, and when they come back (R234, R235, R264,
R349, R352, R362, R453): memory, the straps, and of every island all but the status of its test. -/
namespace Sys2Proof.Machine

/-- t has memory and the straps as s has them, and of every island all but the status of its test. -/
structure KeepsIslands (s t : State) : Prop where
  mem : t.mem = s.mem
  straps : t.straps = s.straps
  island : ∀ i, t.island i = { s.island i with testStatus := (t.island i).testStatus }

theorem KeepsIslands.of_eq {s t : State} (hm : t.mem = s.mem) (hs : t.straps = s.straps) (hi : t.islands = s.islands) :
    KeepsIslands s t := ⟨hm, hs, fun i => by rw [State.island_congr hi]⟩
theorem KeepsIslands.refl (s : State) : KeepsIslands s s := .of_eq rfl rfl rfl
theorem KeepsIslands.trans {s t u : State} (h : KeepsIslands s t) (k : KeepsIslands t u) : KeepsIslands s u :=
  ⟨k.mem.trans h.mem, k.straps.trans h.straps, fun i => by rw [k.island i, h.island i]⟩
theorem Quiet.keepsIslands {s t : State} (h : Quiet s t) : KeepsIslands s t := .of_eq h.mem h.straps h.islands
theorem KeepsIslands.ite {s t u : State} {p : Prop} [Decidable p] (h : KeepsIslands s t) (k : KeepsIslands s u) :
    KeepsIslands s (if p then t else u) := by
  split
  · exact h
  · exact k
theorem KeepsIslands.foldl {α : Type} {f : State → α → State} (hf : ∀ u a, KeepsIslands u (f u a)) (l : List α) (s : State) :
    KeepsIslands s (l.foldl f s) := by
  induction l generalizing s with
  | nil => exact .refl s
  | cons a l ih => exact (hf s a).trans (ih _)
theorem State.abandonTests_keepsIslands (s : State) (f : Nat → Bool) : KeepsIslands s (s.abandonTests f) := by
  obtain ⟨heq, hisland⟩ := s.abandonTests_eq f
  exact ⟨by rw [heq], by rw [heq], hisland⟩

variable {s t : State}

/-! ## A port that takes no access, or serves again (R264, R347, R362) -/

theorem Quiet.domainStall (h : Quiet s t) (p : Nat) : Quiet s (t.domainStall p) := by
  unfold State.domainStall
  refine Quiet.ite h (Quiet.foldl (fun u e hu => ?_) _ h)
  refine Quiet.ite (Quiet.ite (hu.stallOp _ _) hu) ?_
  split
  · exact hu.stall _ _
  · exact hu.stall _ _
  · exact hu.modCtx _ _
  · exact hu
theorem Quiet.hang (h : Quiet s t) (p : Nat) (b : Bool) : Quiet s (t.hang p b) := h.setPort _ _
theorem Quiet.domainReturn (h : Quiet s t) (p : Nat) : Quiet s (t.domainReturn p) := by
  unfold State.domainReturn
  refine Quiet.foldl (fun u e hu => ?slot) _ (Quiet.foldl (fun u e hu => Quiet.askHeader ?channel _) _ (h.setPort _ _))
  case slot =>
    split
    · exact Quiet.ite (hu.setSlot _ _) hu
    · exact hu
  case channel =>
    split
    · exact Quiet.ite (Quiet.askFetch (Quiet.ite (hu.modCtx _ _) (hu.unstall _)) _) hu
    · exact hu
theorem Quiet.resumePort (h : Quiet s t) (p : Nat) : Quiet s (t.resumePort p) := Quiet.ite h (h.domainReturn p)

/-! ## Accesses that fail (R256 to R263, R468) -/

theorem Quiet.captureBytes (h : Quiet s t) (c n seg side o : Nat) (l : List Byte) : Quiet s (t.captureBytes c n seg side o l) := by
  unfold State.captureBytes
  exact Quiet.ite (h.modRun _ _) ((h.modRun _ _).modRun _ _)
theorem Quiet.unlockBlock (h : Quiet s t) (p : Nat) (b : Option Nat) : Quiet s (t.unlockBlock p b) := by
  cases b with
  | none => exact h
  | some b => exact h.setPort _ _
theorem Quiet.freeBlock (h : Quiet s t) (k : CounterOp) : Quiet s (t.freeBlock k) := by
  unfold State.freeBlock
  refine Quiet.ite ?_ h
  split
  · exact h.unlockBlock _ _
  · exact h
theorem Quiet.writeSettles (h : Quiet s t) : Quiet s t.writeSettles := by
  unfold State.writeSettles
  exact Quiet.foldl (fun _ _ hu => hu.presentBeat _ _ _) _ h
theorem Quiet.settleCounter (h : Quiet s t) (c : Nat) (k : CounterOp) : Quiet s (t.settleCounter c k) := by
  unfold State.settleCounter
  split
  · refine Quiet.writeSettles (Quiet.setJrn ?_ _)
    split
    · exact h.setPort _ _
    · exact h
  · exact h
theorem Quiet.giveUpCounter (h : Quiet s t) (c : Nat) : Quiet s (t.giveUpCounter c) := by
  unfold State.giveUpCounter
  split
  · exact (h.settleCounter _ _).modItem _ _
  · exact h
theorem Quiet.counterFailed (h : Quiet s t) (c : Nat) (f : FaultRec) : Quiet s (t.counterFailed c f) := (h.giveUpCounter c).fail _ _
theorem Quiet.lostWrite (h : Quiet s t) (c p : Nat) (f : FaultRec) (r : PortReq) : Quiet s (t.lostWrite c p f r) :=
  (h.modItem _ _).fail _ _
theorem Quiet.postedFault (h : Quiet s t) (c n a : Nat) : Quiet s (t.postedFault c n a) := (h.setSched _).raise _
theorem Quiet.endFault (h : Quiet s t) (c a p n : Nat) : Quiet s (t.endFault c a p n) := (h.modCtx _ _).raise _
theorem Quiet.popFailed (h : Quiet s t) (f : FaultRec) : Quiet s (t.popFailed f) := by
  unfold State.popFailed
  split
  · exact h.poolRun
  · exact Quiet.poolRun (Quiet.setPool (Quiet.ite ((h.popLost _ _).fail _ _) h) _)
theorem Quiet.endGrant (h : Quiet s t) (o : Owner) (n : Nat) : Quiet s (t.endGrant o n) := by
  cases o with
  | opRead c serial seg =>
    unfold State.endGrant
    dsimp only
    have stopped := h.modRun c fun r => if r.serial ≠ serial then r
      else r.modSeg seg fun g => { g with stop := some (min n (g.stop.getD n)) }
    split
    · split
      · exact stopped.carry _ _ _
      · exact stopped
    · exact stopped
  | _ => exact h
/-- The answer of a request of another node takes it from those that are served, and sends frames. -/
theorem State.endInbound_keepsIslands (s : State) (src tag result : Nat) : KeepsIslands s (s.endInbound src tag result) := by
  unfold State.endInbound
  split
  · exact .refl s
  · have taken : KeepsIslands s { s with fab := { s.fab with
        serving := s.fab.serving.filter fun g => !(g.src = src && decide (g.tag = tag)) } } := .of_eq rfl rfl rfl
    have sent := Quiet.refl ({ s with fab := { s.fab with
        serving := s.fab.serving.filter fun g => !(g.src = src && decide (g.tag = tag)) } } : State)
    exact taken.trans (Quiet.ite (sent.foldl (fun _ _ hu => hu.sendFrame _) _) (sent.sendFrame _)).keepsIslands
/-- An access whose retries are exhausted faults its op, its channel or JRN, is lost, or is refused to the node that asked. -/
theorem State.exhausted_keepsIslands (s : State) (p : Option Nat) (a : Access) (cause : Nat) (status : Status) :
    KeepsIslands s (s.exhausted p a cause status) := by
  have h := Quiet.refl s
  have opFault (current : Bool) (c n port addr : Nat) (f g : FaultRec) (r : PortReq) :
      Quiet s (if current then s.failOp c f else if s.journaled then s.lostWrite c port g r else s.postedFault c n addr) :=
    Quiet.ite (h.failOp _ _) (Quiet.ite (h.lostWrite _ _ _ _) (h.postedFault _ _ _))
  obtain ⟨tag, discard, owner, requester, cls, locked, block, beat⟩ := a
  unfold State.exhausted
  cases owner with
  | opRead => exact ((opFault _ _ _ _ _ _ _ _).captureBytes _ _ _ _ _ _).keepsIslands
  | opWrite | result => exact (opFault _ _ _ _ _ _ _ _).keepsIslands
  | header => exact (Quiet.ite ((h.modCtx _ _).haltHeader _ _) (h.modCtx _ _)).keepsIslands
  | fetch => exact (Quiet.ite ((h.modItem _ _).fail _ _) h).keepsIslands
  | ending => exact (h.endFault _ _ _ _).keepsIslands
  | acceptWord => exact ((h.modCtx _ _).raise _).keepsIslands
  | counterRead | counterWrite => exact ((h.unlockBlock _ _).counterFailed _ _).keepsIslands
  | record | journal | upkeep | shadow | clear | settle => exact ((h.setJrn _).raiseIf _ _).keepsIslands
  | inboundRead src tag | inboundWrite src tag => exact s.endInbound_keepsIslands src tag 1
  | pool => exact (h.popFailed _).keepsIslands
  | _ => exact .refl s
theorem State.beatFailed_keepsIslands (s : State) (p : Nat) (w : Bool) (a : Access) (cause : Nat) (holds : Bool) :
    KeepsIslands s (s.beatFailed p w a cause holds) := by
  unfold State.beatFailed
  exact KeepsIslands.ite (((((Quiet.refl s).present _ _ _).endGrant _ _).domainStall _).keepsIslands) (s.exhausted_keepsIslands _ _ _ _)
theorem State.notDone_keepsIslands (s : State) (p : Nat) (w : Bool) (r : PortReq) : KeepsIslands s (s.notDone p w r) :=
  KeepsIslands.foldl (fun u _ => u.beatFailed_keepsIslands _ _ _ _ _) _ s

/-! ## A memory port's reset (R349, R352) -/

theorem State.resetPort_keepsIslands (s : State) (p : Nat) : KeepsIslands s (s.resetPort p) := by
  have errors (w : Bool) (cause : Nat) (l : List Access) (u : State) : KeepsIslands u (l.foldl (fun t a => t.busError p w a cause) u) :=
    KeepsIslands.foldl (fun u _ => u.beatFailed_keepsIslands _ _ _ _ _) l u
  have undone (w : Bool) (l : List PortReq) (u : State) : KeepsIslands u (l.foldl (fun t r => t.notDone p w r) u) :=
    KeepsIslands.foldl (fun u _ => u.notDone_keepsIslands _ _ _) l u
  unfold State.resetPort
  exact ((((((Quiet.refl s).setPort _ _).keepsIslands.trans (errors _ _ _ _)).trans (errors _ _ _ _)).trans (undone _ _ _)).trans
    (undone _ _ _)).trans ((Quiet.refl _).writeSettles.domainStall _).keepsIslands

/-! ## Lanes (R234, R235, R453, R454) -/

theorem Quiet.cutAccesses (h : Quiet s t) (f : Nat → Owner → Bool) : Quiet s (t.cutAccesses f) :=
  h.trans ⟨rfl, rfl, rfl, rfl, rfl, rfl, rfl, rfl, rfl, rfl, rfl, fun _ => rfl⟩
theorem Quiet.ruleLost (h : Quiet s t) (c : Nat) : Quiet s (t.ruleLost c) :=
  h.trans ⟨rfl, rfl, rfl, rfl, rfl, rfl, rfl, rfl, rfl, rfl, rfl, fun _ => rfl⟩
theorem Quiet.reexecute (h : Quiet s t) (c : Nat) : Quiet s (t.reexecute c) := by
  unfold State.reexecute
  split
  · exact h
  · rename_i it _
    have cut := h.cutAccesses fun _ o => o.channel = some c
    have settled : Quiet s (match it.counterOp with
        | some k => ((t.cutAccesses fun _ o => o.channel = some c).freeBlock k).settleCounter c k
        | none => t.cutAccesses fun _ o => o.channel = some c) := by
      split
      · exact (cut.freeBlock _).settleCounter _ _
      · exact cut
    have again (x : Pool) := (((settled.ruleLost c).setPool x).modItem c fun i => i.again).modCtx c fun x =>
      { x with waitOn := none, halting := false, faults := [], fuse := 0 }
    have waits (x : Pool) (y : Journal) (p : Prop) [Decidable p] := Quiet.ite (p := p) (again x) ((again x).setJrn y)
    exact Quiet.ite ((waits _ _ _).setJrn _) (waits _ _ _)
theorem Quiet.recut (h : Quiet s t) (c : Nat) (lanes : List Nat) : Quiet s (t.recut c lanes) := by
  have counter (u : State) (hu : Quiet s u) : Quiet s (match u.item c with
      | some it => (match it.counterOp with
        | some k => if c < legacyBase ∧ k.value ≠ 0 ∧ k.issued ∧ lanes.contains k.lane then
            (u.freeBlock k).counterFailed c (cutFault u 0 (u.counterAddr k.group k.counter) k.forSignal) else u
        | none => u)
      | none => u) := by
    split
    · split
      · exact Quiet.ite ((hu.freeBlock _).counterFailed _ _) hu
      · exact hu
    · exact hu
  unfold State.recut
  dsimp only
  refine counter _ ?_
  split
  · refine Quiet.ite ?_ (h.modRun _ _)
    split
    · exact (h.modRun _ _).failOp _ _
    · exact h.modRun _ _
  · exact h
theorem Quiet.restartTallies (h : Quiet s t) (lanes : List Nat) : Quiet s (t.restartTallies lanes) :=
  Quiet.foldl (fun _ _ hu => Quiet.ite ((hu.cutAccesses _).modRun _ _) hu) _ h
theorem Quiet.cutLanes (h : Quiet s t) (lanes : List Nat) : Quiet s (t.cutLanes lanes) := by
  unfold State.cutLanes
  exact Quiet.foldl (fun _ _ hu => hu.present _ _ _) _ (Quiet.restartTallies
    (Quiet.foldl (fun _ _ hu => Quiet.ite (hu.reexecute _) (hu.recut _ _)) _ (h.cutAccesses _)) _)
theorem Quiet.setLane (h : Quiet s t) (l v : Nat) : Quiet s (t.setLane l v) := h.setSched _
theorem Quiet.placeLane (h : Quiet s t) (l : Nat) : Quiet s (t.placeLane l) := h.setLane _ _
theorem Quiet.retireLane (h : Quiet s t) (l : Nat) : Quiet s (t.retireLane l) := by
  unfold State.retireLane
  refine Quiet.ite ?_ (h.setLane _ _)
  split
  · exact (h.setLane _ _).setLane _ _
  · exact h.setLane _ _
theorem Quiet.settleDemand (h : Quiet s t) : Quiet s t.settleDemand := Quiet.ite (h.setSched _) h

/-! ## Stash ports (R352, R364, R366) -/

theorem Quiet.writeTile (h : Quiet s t) (lane : Nat) (r : PortReq) : Quiet s (t.writeTile lane r) :=
  Quiet.foldl (fun u b hu => by
    split
    · exact hu.present _ _ _
    · exact hu) _ h
theorem Quiet.fallBack (h : Quiet s t) (n : Nat) : Quiet s (t.fallBack n) := by
  unfold State.fallBack
  dsimp only
  split
  · exact Quiet.foldl (fun _ _ hu => hu.writeTile _ _) _ (h.setStash _ _)
  · exact h
theorem Quiet.fallAll (n k : Nat) : ∀ {t : State}, Quiet s t → Quiet s (t.fallAll n k) := by
  induction k with
  | zero => exact fun h => h
  | succ k ih => exact fun h => Quiet.ite h (ih (h.fallBack n))
theorem Quiet.resetStash (h : Quiet s t) (n : Nat) : Quiet s (t.resetStash n) := (Quiet.fallAll n _ h).setStash _ _
theorem Quiet.fallHeld (h : Quiet s t) : Quiet s t.fallHeld :=
  Quiet.foldl (fun _ _ hu => Quiet.ite hu (Quiet.fallAll _ _ hu)) _ h

/-! ## Links (R314, R326, R410) -/

theorem State.dropLink_onlyFab (s : State) (l : Nat) : OnlyFab s (s.dropLink l) := by
  unfold State.dropLink
  split
  · exact (s.linkDown_link l).1
  · rfl
theorem OnlyFab.keepsIslands (h : OnlyFab s t) : KeepsIslands s t := by
  rw [h]
  exact .of_eq rfl rfl rfl
theorem State.linkDark_keepsIslands (s : State) (l : Nat) : KeepsIslands s (s.linkDark l) :=
  (s.dropLink_onlyFab l).keepsIslands.trans (.of_eq rfl rfl rfl)
theorem State.cutInbound_keepsIslands (s : State) (l : Nat) : KeepsIslands s (s.cutInbound l) := .of_eq rfl rfl rfl
theorem State.awaitLock_onlyFab (s : State) (l : Nat) : OnlyFab s (s.awaitLock l) := by
  unfold State.awaitLock
  dsimp only
  split <;> rfl

/-! ## An island's reset and its end (R349, R351, R352) -/

theorem State.resetCentral_keepsIslands (s : State) (i : Nat) : KeepsIslands s (s.resetCentral i) :=
  KeepsIslands.ite (.of_eq rfl rfl rfl) (KeepsIslands.ite (.of_eq rfl rfl rfl) (.refl s))
theorem State.cutIsland_keepsIslands (s : State) (i : Nat) : KeepsIslands s (s.cutIsland i) := by
  have masked := (Quiet.refl s).maskReqs (islandReqs i)
  unfold State.cutIsland
  dsimp only
  refine KeepsIslands.ite (masked.cutLanes _).keepsIslands
    (masked.keepsIslands.trans (KeepsIslands.ite ?port (KeepsIslands.ite ?link (KeepsIslands.ite ?stash (KeepsIslands.ite ?tst ?central)))))
  case port => exact State.resetPort_keepsIslands _ _
  case link => exact (State.linkDark_keepsIslands _ _).trans (State.cutInbound_keepsIslands _ _)
  case stash => exact ((Quiet.refl _).resetStash _).keepsIslands
  case tst => exact State.abandonTests_keepsIslands _ _
  case central => exact State.resetCentral_keepsIslands _ _
/-- An island put in reset is in reset, and what it did is cut off. -/
theorem State.assertReset_keepsIslands (s : State) (i : Nat) :
    KeepsIslands (s.setIsland i { s.island i with inReset := true }) (s.assertReset i) := by
  unfold State.assertReset
  split
  · rename_i h
    refine ⟨rfl, rfl, fun k => ?_⟩
    rw [State.island_setIsland]
    split
    · next e => rw [← e, ← h]
    · rfl
  · exact (State.abandonTests_keepsIslands _ _).trans (State.cutIsland_keepsIslands _ i)
theorem State.islandBack_keepsIslands (s : State) (i : Nat) : KeepsIslands s (s.islandBack i) := by
  have h := Quiet.refl s
  unfold State.islandBack
  refine KeepsIslands.ite (KeepsIslands.ite (.refl s) ?mover) (KeepsIslands.ite ?port (KeepsIslands.ite ?link ?rest))
  case mover =>
    have placed := Quiet.foldl (f := fun t l => if t.lane l = 3 then t.placeLane l else t)
      (fun u l hu => Quiet.ite (hu.placeLane l) hu) (moverLanes (i - 2)) (h.unmaskReqs (moverLanes (i - 2)))
    exact placed.settleDemand.fallHeld.keepsIslands
  case port => exact ((h.setPort _ _).resumePort _).keepsIslands
  case link => exact (h.unmaskReqs _).keepsIslands.trans (State.awaitLock_onlyFab _ _).keepsIslands
  case rest => exact (h.unmaskReqs _).keepsIslands

end Sys2Proof.Machine
end

section
/-! PROOFS. Resets, faults, clocks and power of the islands (R337, R338, R347, R349, R351 to R353, R364, R410, R453). -/
namespace Sys2Proof.Machine

variable (s : State) (i : Nat)

theorem KeepsIslands.setIsland {s t : State} (h : KeepsIslands s t) (i : Nat) (x : Island) :
    KeepsIslands (s.setIsland i x) (t.setIsland i x) := by
  refine ⟨h.mem, h.straps, fun k => ?_⟩
  simp only [State.island_setIsland]
  split
  · rfl
  · exact h.island k
/-- The later of two updates of an island stands. -/
theorem KeepsIslands.of_setIsland_twice (x y : Island) : KeepsIslands (s.setIsland i y) ((s.setIsland i x).setIsland i y) := by
  refine ⟨rfl, rfl, fun k => ?_⟩
  simp only [State.island_setIsland]
  split <;> rfl
/-- The central islands (R352). -/
theorem isCentral_iff : isCentral i = true ↔ i = 0 ∨ i = 1 ∨ i = 15 ∨ i = 16 ∨ i = 17 := by
  simp [isCentral, centralIslands, ctlIsland, schedIsland, poolIsland, ctxIsland, jrnIsland]
theorem isCentral_false_iff : isCentral i = false ↔ i ≠ 0 ∧ i ≠ 1 ∧ i ≠ 15 ∧ i ≠ 16 ∧ i ≠ 17 := by
  rw [← Bool.not_eq_true, isCentral_iff]
  omega

theorem not_ctl_or_outside {i : Nat} (h0 : i ≠ 0) (h47 : i < 47) : ¬ (i = ctlIsland ∨ 47 ≤ i) := by
  simp only [ctlIsland]
  omega
theorem portIsland_sub (p : Nat) : portIsland p - 18 = p := Nat.add_sub_cancel_left 18 p
theorem portIsland_range {p : Nat} (hp : p < 8) : 18 ≤ portIsland p ∧ portIsland p < 26 := by
  simp only [portIsland]
  omega

/-! ## The device's reset (R26, R352, R432) -/

/-- What holds of every value written, and of the table before, holds of every value read. -/
theorem Tab.get_putAll_of {α : Type} [DecidableEq α] {d : Nat → α} {P : Nat → α → Prop} (l : List (Nat × α)) (t : Tab α)
    (ht : ∀ k, P k (Tab.get d t k)) (hl : ∀ e ∈ l, P e.1 e.2) (k : Nat) : P k (Tab.get d (Tab.putAll d t l) k) := by
  induction l generalizing t with
  | nil => exact ht k
  | cons e l ih =>
    obtain ⟨j, a⟩ := e
    refine ih _ (fun k' => ?_) (fun f hf => hl f (List.mem_cons_of_mem _ hf))
    rw [Tab.get_put]
    split
    · next h => exact h ▸ hl (j, a) List.mem_cons_self
    · exact ht k'
/-- Memory and the straps given stand, no context is left, and the islands keep of what they were the levels of their inputs. -/
theorem State.deviceReset_keeps (x : Straps) (w : Bool) : (s.deviceReset x w).mem = s.mem ∧ (s.deviceReset x w).ctxs = [] ∧
    (s.deviceReset x w).straps = x ∧
    (s.deviceReset x w).islands = Tab.putAll Machine.islandReset [] (s.islands.map fun e => (e.1, e.2.inputs e.1)) := by
  unfold State.deviceReset
  dsimp only
  repeat' split
  all_goals exact ⟨rfl, rfl, rfl, rfl⟩
/-- Every island but CTL stands in reset behind the device's reset. -/
theorem State.deviceReset_inReset (x : Straps) (w : Bool) (h : i ≠ 0) : ((s.deviceReset x w).island i).inReset = true := by
  obtain ⟨-, -, -, hislands⟩ := s.deviceReset_keeps x w
  have reset (k : Nat) (hk : k ≠ 0) : (Machine.islandReset k).inReset = true := by rw [Machine.islandReset, if_neg hk]
  unfold State.island
  rw [hislands]
  refine Tab.get_putAll_of (d := Machine.islandReset) (P := fun k y => k ≠ 0 → y.inReset = true) _ [] reset (fun e he => ?_) i h
  obtain ⟨f, -, rfl⟩ := List.mem_map.1 he
  exact reset f.1

/-! ## ISLAND_RESET_ASSERT and ISLAND_FAULT (R349, R352, R453) -/

variable {s i}

theorem State.centralAlone_of_traffic (h : s.ctl.mode.traffic = true) : s.centralAlone = false := by
  unfold State.centralAlone
  unfold Mode.traffic at h
  cases hm : s.ctl.mode <;> simp_all
theorem State.resetLow_alone (h0 : i ≠ 0) (h47 : i < 47) (hc : isCentral i = false) :
    s.resetLow i = (s.setIsland i { s.island i with rstLow := true }).assertReset i := by
  have hdevice : ¬ (isCentral i = true ∧ (!s.centralAlone) = true) := by simp [hc]
  unfold State.resetLow
  rw [if_neg (not_ctl_or_outside h0 h47)]
  exact if_neg hdevice
theorem State.resetLow_device (h0 : i ≠ 0) (h47 : i < 47) (hc : isCentral i = true) (ht : s.ctl.mode.traffic = true) :
    s.resetLow i = (s.setIsland i { s.island i with rstLow := true }).deviceReset s.straps false := by
  unfold State.resetLow
  rw [if_neg (not_ctl_or_outside h0 h47)]
  exact if_pos ⟨hc, by rw [State.centralAlone_of_traffic ht]; rfl⟩

/-- The fault is kept, counted and raised. -/
def State.noteFault (s : State) (i : Nat) : State :=
  (s.setIsland i { s.island i with fault := true, faults := satAdd u16Max (s.island i).faults 1 }).raise .islandFault
theorem State.noteFault_island : (s.noteFault i).island i =
    { s.island i with fault := true, faults := satAdd u16Max (s.island i).faults 1 } := by
  unfold State.noteFault
  rw [State.island_congr (State.raise_islands _ _), State.island_setIsland_self]
theorem State.islandFault_device (h47 : i < 47) (hc : isCentral i = true) :
    s.islandFault i = (s.noteFault i).deviceReset (s.noteFault i).straps false := by
  unfold State.islandFault
  rw [if_neg (by omega)]
  exact if_pos hc
theorem State.islandFault_mover (hc : isCentral i = false) (h15 : i < 15) : s.islandFault i =
    if (s.island i).retired then s.noteFault i
    else (((s.noteFault i).maskReqs (moverLanes (i - 2))).cutLanes (moverLanes (i - 2))).retireMover (i - 2) := by
  unfold State.islandFault
  rw [if_neg (by omega)]
  exact (if_neg (by simp [hc])).trans (if_pos h15)
theorem State.islandFault_alone (h47 : i < 47) (hc : isCentral i = false) (h15 : ¬ i < 15) :
    s.islandFault i = (s.noteFault i).assertReset i := by
  unfold State.islandFault
  rw [if_neg (by omega)]
  exact (if_neg (by simp [hc])).trans (if_neg h15)
/-- A mover that retires is retired and no longer held out; its lanes leave the active set. -/
theorem State.retireMover_keepsIslands (s : State) (m : Nat) :
    KeepsIslands (s.setIsland (moverIsland m) { s.island (moverIsland m) with retired := true, heldOut := false }) (s.retireMover m) := by
  have masked := ((Quiet.refl s).maskReqs (moverLanes m)).keepsIslands.setIsland (moverIsland m)
    { s.island (moverIsland m) with retired := true, heldOut := false }
  unfold State.retireMover
  exact masked.trans (Quiet.keepsIslands (Quiet.foldl (fun _ _ hu => Quiet.ite hu (hu.retireLane _)) _
    (Quiet.foldl (fun _ _ hu => Quiet.ite (hu.setLane _ _) hu) _ (.refl _))))
/-- A mover that faults is retired, with its fault kept. -/
theorem State.islandFault_retires (h2 : 2 ≤ i) (h15 : i < 15) (hc : isCentral i = false) :
    (s.islandFault i).island i = { (s.noteFault i).island i with
      retired := true, heldOut := ((s.islandFault i).island i).heldOut, testStatus := ((s.islandFault i).island i).testStatus } := by
  rw [State.islandFault_mover hc h15]
  split
  · next hr =>
    have h : ((s.noteFault i).island i).retired = true := by rw [State.noteFault_island]; exact hr
    rw [← h]
  · have hi : moverIsland (i - 2) = i := by simp only [moverIsland]; omega
    have cut := (((Quiet.refl (s.noteFault i)).maskReqs (moverLanes (i - 2))).cutLanes (moverLanes (i - 2))).islands
    generalize ((s.noteFault i).maskReqs (moverLanes (i - 2))).cutLanes (moverLanes (i - 2)) = u at cut
    have retired := (u.retireMover_keepsIslands (i - 2)).island i
    rw [hi, State.island_setIsland_self, State.island_congr cut] at retired
    rw [retired]

/-! ## ISLAND_RESET_RELEASE (R351) -/

theorem State.resetHigh_eq (h0 : i ≠ 0) (h47 : i < 47) (w : Bool) :
    s.resetHigh i w = (s.setIsland i { s.island i with rstLow := false, pwrok := w }).releaseReset i := by
  unfold State.resetHigh
  exact if_neg (not_ctl_or_outside h0 h47)
theorem State.releaseReset_held (h : (s.island i).mayRelease = false) : s.releaseReset i = s := by
  unfold State.releaseReset
  exact if_neg (by simp [h])
/-- An island that may leave reset leaves it, ungated, and what it does then leaves the others. -/
theorem State.releaseReset_keepsIslands (hr : (s.island i).inReset = true) (hm : (s.island i).mayRelease = true) :
    KeepsIslands (s.setIsland i { s.island i with inReset := false, gated := false, pdack := false }) (s.releaseReset i) := by
  unfold State.releaseReset
  dsimp only
  rw [if_pos (by simp [hr, hm])]
  exact State.islandBack_keepsIslands _ i

theorem islandsAreResetAndReleased : Claims.IslandsAreResetAndReleased := by
  intro i s h0 h47
  refine ⟨fun hc => ?alone, fun hc ht => ⟨?device, ?deviceFault⟩, fun hr hp hh => ⟨fun hclk => ?released, fun w hw => ?held⟩,
    fun hc => ?fault, rfl⟩
  case alone =>
    have h := (s.setIsland i { s.island i with rstLow := true }).assertReset_keepsIslands i
    have hi := h.island i
    rw [← State.resetLow_alone h0 h47 hc] at h hi
    rw [State.island_setIsland_self, State.island_setIsland_self] at hi
    exact ⟨_, rfl, by rw [hi], by rw [hi], h.straps⟩
  case device =>
    obtain ⟨hmem, hctxs, hstraps, -⟩ := (s.setIsland i { s.island i with rstLow := true }).deviceReset_keeps s.straps false
    exact ⟨_, congrArg Host.Outcome.next (State.resetLow_device h0 h47 hc ht), hmem, hctxs, hstraps,
      State.deviceReset_inReset _ i _ _ h0⟩
  case deviceFault =>
    obtain ⟨hmem, hctxs, -⟩ := (s.noteFault i).deviceReset_keeps (s.noteFault i).straps false
    exact ⟨_, congrArg Host.Outcome.next (State.islandFault_device h47 hc), hmem.trans (State.raise_mem _ _), hctxs,
      State.deviceReset_inReset _ i _ _ h0⟩
  case released =>
    have h := State.releaseReset_keepsIslands (s := s.setIsland i { s.island i with rstLow := false, pwrok := true }) (i := i)
      (by simpa using hr) (by simp [Island.mayRelease, hclk, hp, hh])
    have hi := h.island i
    rw [State.island_setIsland_self] at hi
    exact ⟨_, congrArg Host.Outcome.next (State.resetHigh_eq h0 h47 true), h.mem, by rw [hi], by rw [hi, State.island_setIsland_self],
      by rw [hi], by rw [hi]⟩
  case held =>
    have hm : ((s.setIsland i { s.island i with rstLow := false, pwrok := w }).island i).mayRelease = false := by
      obtain hw | hw := hw <;> simp [Island.mayRelease, hw]
    refine ⟨_, congrArg Host.Outcome.next ((State.resetHigh_eq h0 h47 w).trans (State.releaseReset_held hm)), rfl, ?_⟩
    rw [State.island_setIsland_self]
    exact ⟨hr, rfl, rfl⟩
  case fault =>
    by_cases h15 : i < 15
    · have h2 : 2 ≤ i := by
        obtain ⟨-, h1, -⟩ := (isCentral_false_iff i).1 hc
        omega
      have hi := State.islandFault_retires (s := s) h2 h15 hc
      rw [State.noteFault_island] at hi
      exact ⟨_, rfl, by rw [hi], by rw [hi], by rw [if_pos h15, hi]⟩
    · have hi := ((s.noteFault i).assertReset_keepsIslands i).island i
      rw [← State.islandFault_alone h47 hc h15, State.island_setIsland_self, State.noteFault_island] at hi
      exact ⟨_, rfl, by rw [hi], by rw [hi], by rw [if_neg h15, hi]⟩

/-! ## Clocks (R337, R338, R347, R358) -/

theorem State.stallOp_ctl (s : State) (c : Nat) (x : WaitOn) : (s.stallOp c x).ctl = s.ctl := by
  unfold State.stallOp
  split <;> rfl
/-- The channels that a closing domain stalls raise no event. -/
theorem State.domainStall_ctl (s : State) (p : Nat) : (s.domainStall p).ctl = s.ctl := by
  unfold State.domainStall
  split
  · rfl
  · refine List.foldlRecOn (motive := fun t : State => t.ctl = s.ctl) _ _ rfl (fun t ht e _ => ?_)
    dsimp only
    split
    · split
      · exact (t.stallOp_ctl _ _).trans ht
      · exact ht
    · split <;> exact ht
/-- An event raised counts once, and the count of no other changes. -/
theorem State.raise_eventCount (s : State) (e : Event) (n : Nat) : Tab.get zeroTab (s.raise e).ctl.eventCount n =
    if e.number = n then satAdd u32Max (Tab.get zeroTab s.ctl.eventCount e.number) 1 else Tab.get zeroTab s.ctl.eventCount n := by
  have posted (u : State) (w k : Nat) : (u.postEvent w k).ctl.eventCount = u.ctl.eventCount := by
    unfold State.postEvent
    dsimp only
    split <;> rfl
  rw [← Tab.get_put]
  unfold State.raise
  dsimp only
  split
  · rw [posted]
  · rfl
theorem State.raiseIf_eventCount (s : State) (b : Bool) (e : Event) : Tab.get zeroTab (s.raiseIf b e).ctl.eventCount e.number =
    if b then satAdd u32Max (Tab.get zeroTab s.ctl.eventCount e.number) 1 else Tab.get zeroTab s.ctl.eventCount e.number := by
  unfold State.raiseIf
  split
  · exact (s.raise_eventCount e _).trans (if_pos rfl)
  · rfl
/-- The clock reads absent, and its loss is an event where it had to run. -/
def State.noteClockLost (s : State) (i : Nat) : State :=
  (s.setIsland i { s.island i with clockPresent := false, clockPaused := s.onHold i }).raiseIf
    (!(s.island i).gated && !(s.island i).inReset && !s.onHold i) .clockLost
theorem State.noteClockLost_quiet (s : State) (i : Nat) :
    Quiet (s.setIsland i { s.island i with clockPresent := false, clockPaused := s.onHold i }) (s.noteClockLost i) :=
  (Quiet.refl _).raiseIf _ _
theorem State.clockGone_eq (h47 : i < 47) (hc : (s.island i).clockPresent = true) : s.clockGone i =
    if 18 ≤ i ∧ i < 26 ∧ !s.onHold i then ((s.noteClockLost i).hang (i - 18) true).domainStall (i - 18) else s.noteClockLost i := by
  have hgone : ¬ (47 ≤ i ∨ (!(s.island i).clockPresent) = true) := by
    rw [hc]
    simp only [Bool.not_true, Bool.false_eq_true, or_false]
    omega
  unfold State.clockGone
  exact if_neg hgone
theorem State.clockGone_quiet (h47 : i < 47) (hc : (s.island i).clockPresent = true) :
    Quiet (s.setIsland i { s.island i with clockPresent := false, clockPaused := s.onHold i }) (s.clockGone i) := by
  rw [State.clockGone_eq h47 hc]
  exact Quiet.ite ((s.noteClockLost_quiet i).hang _ _ |>.domainStall _) (s.noteClockLost_quiet i)
theorem State.clockGone_ctl (h47 : i < 47) (hc : (s.island i).clockPresent = true) : (s.clockGone i).ctl = (s.noteClockLost i).ctl := by
  rw [State.clockGone_eq h47 hc]
  split
  · rw [State.domainStall_ctl]
    rfl
  · rfl
/-- All that stands at a port whose clock stops hangs. -/
theorem State.clockGone_hangs {p : Nat} (hp : p < 8) (hc : (s.island (portIsland p)).clockPresent = true)
    (hh : s.onHold (portIsland p) = false) {r : PortReq}
    (hr : r ∈ ((s.clockGone (portIsland p)).port p).rd.queue ++ ((s.clockGone (portIsland p)).port p).wr.queue) : r.hung = true := by
  have hports := portIsland_range hp
  rw [State.clockGone_eq (by omega) hc, if_pos ⟨hports.1, hports.2, by rw [hh]; rfl⟩, portIsland_sub,
    State.port_congr (State.domainStall_keeps _ p).2, State.hang, State.port_setPort_self, ← List.map_append] at hr
  obtain ⟨q, -, rfl⟩ := List.mem_map.1 hr
  rfl

/-- What an island does whose clock returns leaves memory and the islands. -/
theorem State.clockBack_keeps (h47 : i < 47) : (s.clockBack i).mem = s.mem ∧
    (s.clockBack i).islands = (s.setIsland i { s.island i with clockPresent := true, clockPaused := false }).islands := by
  have back := Quiet.refl (s.setIsland i { s.island i with clockPresent := true, clockPaused := false })
  have lock := (s.setIsland i { s.island i with clockPresent := true, clockPaused := false }).awaitLock_onlyFab (i - 26)
  have goes : Quiet (s.setIsland i { s.island i with clockPresent := true, clockPaused := false })
      ((s.setIsland i { s.island i with clockPresent := true, clockPaused := false }).unitGoes i) :=
    Quiet.ite back.poolRun (Quiet.ite back.upkeepNext back)
  have port := (back.hang (i - 18) false).resumePort (i - 18)
  unfold State.clockBack
  rw [if_neg (by omega)]
  dsimp only
  split
  · exact ⟨rfl, rfl⟩
  · split
    · exact ⟨port.mem, port.islands⟩
    · split
      · rw [lock]
        exact ⟨rfl, rfl⟩
      · exact ⟨goes.mem, goes.islands⟩
/-- A unit that is neither a port nor a link goes on once its clock is back. -/
theorem State.clockBack_goes (h47 : i < 47) (hport : ¬ (18 ≤ i ∧ i < 26)) (hlink : ¬ (26 ≤ i ∧ i < 42))
    (h1 : (s.island i).clockPresent = false) (h2 : (s.island i).inReset = false) (h3 : (s.island i).gated = false) :
    s.clockBack i = (s.setIsland i { s.island i with clockPresent := true, clockPaused := false }).unitGoes i := by
  unfold State.clockBack
  rw [if_neg (by omega)]
  exact (if_neg (by simp [h1, h2, h3])).trans ((if_neg hport).trans (if_neg hlink))

theorem clocksAreSeenToStopAndReturn : Claims.ClocksAreSeenToStopAndReturn := by
  intro i s h0 h47
  refine ⟨fun hc => ?lost, ?back, fun h1 h2 h3 => ⟨?pool, ?jrn⟩⟩
  case lost =>
    have gone := State.clockGone_quiet h47 hc
    refine ⟨_, exec_clockLost i s h0, gone.mem, ?_, ?_, fun p hp hi hh r hr => ?_⟩
    · rw [State.island_congr gone.islands, State.island_setIsland_self]
    · rw [State.clockGone_ctl h47 hc]
      refine (State.raiseIf_eventCount _ _ .clockLost).trans ?_
      simp only [Bool.and_eq_true, Bool.not_eq_true', and_assoc]
      rfl
    · subst hi
      exact State.clockGone_hangs hp hc hh hr
  case back =>
    obtain ⟨hmem, hislands⟩ := State.clockBack_keeps (s := s) h47
    exact ⟨_, rfl, hmem, by rw [State.island_congr hislands, State.island_setIsland_self]⟩
  case pool =>
    rintro rfl
    exact congrArg Host.Outcome.next (State.clockBack_goes h47 (by decide) (by decide) h1 h2 h3)
  case jrn =>
    rintro rfl
    exact congrArg Host.Outcome.next (State.clockBack_goes h47 (by decide) (by decide) h1 h2 h3)

/-! ## Power (R353, R364, R410) -/

theorem State.powerRequest_keepsIslands (h0 : i ≠ 0) (h47 : i < 47) :
    KeepsIslands (s.setIsland i { s.island i with pdreq := true }) (s.powerRequest i) := by
  unfold State.powerRequest
  rw [if_neg (not_ctl_or_outside h0 h47)]
  exact KeepsIslands.ite ((Quiet.refl _).domainStall _).keepsIslands (KeepsIslands.ite (State.dropLink_onlyFab _ _).keepsIslands
    (KeepsIslands.ite (State.abandonTests_keepsIslands _ _) (.refl _)))

/-- The island is masked and gated, and PDACK is high. -/
def State.gatedIsland (s : State) (i : Nat) : State :=
  (s.maskReqs (islandReqs i)).setIsland i { s.island i with pdack := true, gated := true }
/-- A gated island's outputs read what reset gives them (R364, R410), and a mover's lanes leave the active set (R454). -/
def State.outputsLow (t : State) (i : Nat) : State :=
  if i < 15 then (moverLanes (i - 2)).foldl (fun u l => if u.lane l = 2 then u else u.setLane l 3) t
  else if 18 ≤ i ∧ i < 26 then t.setPort (i - 18) { t.port (i - 18) with qack := false }
  else if 26 ≤ i ∧ i < 42 then t.setLink (i - 26) { t.link (i - 26) with state := 0, txBlock := [] }
  else if 42 ≤ i ∧ i < 46 then t.setStash (i - 42) { t.stashPort (i - 42) with wake := false, leadPassed := false }
  else t
theorem State.powerAck_waits (h : isCentral i = true ∨ s.powerIdle i = false) : s.powerAck i = s := by
  unfold State.powerAck
  exact if_pos (by obtain h | h := h <;> simp [h])
theorem State.powerAck_gates (h47 : i < 47) (hc : isCentral i = false) (hr : (s.island i).pdreq = true)
    (ha : (s.island i).pdack = false) (hd : s.powerIdle i = true) : s.powerAck i = (s.gatedIsland i).outputsLow i := by
  unfold State.powerAck
  exact if_neg (by simp [hc, hr, ha, hd]; omega)
theorem State.maskReqs_ctxs (s : State) (l : List Nat) : (s.maskReqs l).ctxs = s.ctxs := by
  unfold State.maskReqs
  rw [State.nextFree_ctxs]
  exact List.foldlRecOn (motive := fun t : State => t.ctxs = s.ctxs) _ _ rfl fun t ht p _ => (t.setPort_ctxs p _).trans ht
theorem State.gatedIsland_keeps : (s.gatedIsland i).mem = s.mem ∧ (s.gatedIsland i).ctxs = s.ctxs ∧
    (s.gatedIsland i).island i = { s.island i with pdack := true, gated := true } := by
  unfold State.gatedIsland
  rw [State.setIsland_mem, State.setIsland_ctxs, State.maskReqs_ctxs, State.island_setIsland_self]
  exact ⟨((Quiet.refl s).maskReqs _).mem, rfl, rfl⟩
theorem State.outputsLow_keeps (t : State) : (t.outputsLow i).mem = t.mem ∧ (t.outputsLow i).ctxs = t.ctxs ∧
    (t.outputsLow i).islands = t.islands := by
  unfold State.outputsLow
  split
  · refine List.foldlRecOn (motive := fun u : State => u.mem = t.mem ∧ u.ctxs = t.ctxs ∧ u.islands = t.islands) _ _ ⟨rfl, rfl, rfl⟩
      (fun u hu l _ => ?_)
    split <;> exact hu
  · repeat' split
    all_goals exact ⟨rfl, rfl, rfl⟩
theorem State.outputsLow_port (t : State) {p : Nat} (hp : p < 8) : ((t.outputsLow (portIsland p)).port p).qack = false := by
  have hports := portIsland_range hp
  unfold State.outputsLow
  rw [if_neg (by omega), if_pos hports, portIsland_sub, State.port_setPort_self]
theorem State.outputsLow_link (t : State) {l : Nat} (hl : l < 16) : ((t.outputsLow (linkIsland l)).link l).txBlock = [] := by
  have hi : linkIsland l - 26 = l := Nat.add_sub_cancel_left 26 l
  have hlinks : 26 ≤ linkIsland l ∧ linkIsland l < 42 := by simp only [linkIsland]; omega
  unfold State.outputsLow
  rw [if_neg (by omega), if_neg (by omega), if_pos hlinks, hi, State.link_setLink_self]
theorem State.outputsLow_stash (t : State) {n : Nat} (hn : n < 4) : ((t.outputsLow (stashIsland n)).stashPort n).wake = false := by
  have hi : stashIsland n - 42 = n := Nat.add_sub_cancel_left 42 n
  have hstash : 42 ≤ stashIsland n ∧ stashIsland n < 46 := by simp only [stashIsland]; omega
  unfold State.outputsLow
  rw [if_neg (by omega), if_neg (by omega), if_neg (by omega), if_pos hstash, hi, State.stashPort_setStash_self]

/-- PDREQ falls: behind PDACK the island is reset, before it goes on. -/
theorem State.powerRelease_keepsIslands (h47 : i < 47) (hr : (s.island i).pdreq = true) (w : Bool) :
    KeepsIslands (s.setIsland i { s.island i with
      pdreq := false, pwrok := w, inReset := (s.island i).pdack || (s.island i).inReset }) (s.powerRelease i w) := by
  have hin : ¬ (47 ≤ i ∨ (!(s.island i).pdreq) = true) := by
    rw [hr]
    simp only [Bool.not_true, Bool.false_eq_true, or_false]
    omega
  have h := Quiet.refl (s.setIsland i { s.island i with pdreq := false, pwrok := w })
  unfold State.powerRelease
  rw [if_neg hin]
  dsimp only
  split
  · next ha =>
    have reset := State.assertReset_keepsIslands (s.setIsland i { s.island i with pdreq := false, pwrok := w }) i
    have hreset : ((s.island i).pdack || (s.island i).inReset) = true := by simp [ha]
    rw [State.island_setIsland_self] at reset
    rw [hreset]
    exact (KeepsIslands.of_setIsland_twice s i _ _).trans reset
  · next ha =>
    have hkept : ((s.island i).pdack || (s.island i).inReset) = (s.island i).inReset := by simp [ha]
    rw [hkept]
    exact KeepsIslands.ite (h.resumePort _).keepsIslands (KeepsIslands.ite (State.awaitLock_onlyFab _ _).keepsIslands (.refl _))

theorem powerDownIsAHandshake : Claims.PowerDownIsAHandshake := by
  intro i s h0 h47
  refine ⟨?request, fun hr ha => ⟨fun hc hd => ?ack, fun h => congrArg Host.Outcome.next (State.powerAck_waits h)⟩, fun hr w => ?release⟩
  case request =>
    have h := State.powerRequest_keepsIslands (s := s) h0 h47
    have hi := h.island i
    rw [State.island_setIsland_self] at hi
    exact ⟨_, rfl, h.mem, by rw [hi], by rw [hi]⟩
  case ack =>
    obtain ⟨gmem, gctxs, gisland⟩ := State.gatedIsland_keeps (s := s) (i := i)
    obtain ⟨hmem, hctxs, hislands⟩ := State.outputsLow_keeps (i := i) (s.gatedIsland i)
    refine ⟨_, congrArg Host.Outcome.next (State.powerAck_gates h47 hc hr ha hd), hmem.trans gmem, hctxs.trans gctxs,
      (State.island_congr hislands i).trans gisland, fun p hp hi => ?_, fun l hl hi => ?_, fun n hn hi => ?_⟩
    · subst hi
      exact State.outputsLow_port _ hp
    · subst hi
      exact State.outputsLow_link _ hl
    · subst hi
      exact State.outputsLow_stash _ hn
  case release =>
    have hi := (State.powerRelease_keepsIslands h47 hr w).island i
    rw [State.island_setIsland_self] at hi
    exact ⟨_, rfl, by rw [hi], by rw [hi], by rw [hi]⟩

/-- Settles O49: what a reset, a fault, a clock or PDREQ does to its island is written first, and the work cut off or resumed behind it
leaves memory, the straps and every island but the status of its test. -/
theorem islandsResetsClocksAndPower : Obligations.IslandsResetsClocksAndPower :=
  ⟨islandsAreResetAndReleased, clocksAreSeenToStopAndReturn, powerDownIsAHandshake⟩

end Sys2Proof.Machine
end

section
/-! PROOFS. ISLAND_RESET and SERVICE: RETIRE, TEST, TEST_END and RETURN of islands (R352, R452, R456, R458). -/
namespace Sys2Proof.Machine

variable {s : State} {r : Request} {i : Nat}

/-! ## Commands of islands served -/

theorem writesTo_of_writes {j sub v : Nat} (h : Claims.writes s r j sub v) : Request.writesTo j r = true := by
  obtain ⟨-, -, -, hs, hi, -⟩ := h
  simp [Request.writesTo, hs, hi]
theorem exec_islandReset_writes {v : Nat} (h : Claims.writes s r 0x3001 (i + 1) v) :
    exec .islandReset s = .next (s.reply r (s.islandReset i)) :=
  congrArg Host.Outcome.next (s.serveFor_write r _ _ _ _ h (writesTo_of_writes h))
theorem exec_retire_writes (h : Claims.writes s r 0x3400 (i + 1) 1) : exec .retire s = .next (s.reply r (s.retireAct i)) :=
  congrArg Host.Outcome.next (s.serveFor_write r _ _ _ _ h (writesValue_of_writes h))
theorem exec_test_writes (h : Claims.writes s r 0x3400 (i + 1) 2) : exec .test s = .next (s.reply r (s.testAct i)) :=
  congrArg Host.Outcome.next (s.serveFor_write r _ _ _ _ h (writesValue_of_writes h))
theorem exec_returnIsland_writes (h : Claims.writes s r 0x3400 (i + 1) 3) :
    exec .returnIsland s = .next (s.reply r (s.returnAct i)) :=
  congrArg Host.Outcome.next (s.serveFor_write r _ _ _ _ h (writesValue_of_writes h))
theorem State.reply_ok_island (t : State) (r : Request) (i : Nat) : (s.reply r (.ok t)).island i = t.island i := by
  obtain ⟨-, -, -, -, -, -, -, -, hislands, -⟩ := s.reply_keeps t r
  exact State.island_congr hislands i

/-! ## ISLAND_RESET (R352) -/

theorem State.islandReset_resets (h0 : i ≠ 0) (h : isCentral i = false ∨ s.ctl.mode = .config) :
    s.islandReset i = .ok (s.assertReset i) := by
  unfold State.islandReset
  rw [if_neg (show i ≠ ctlIsland from h0)]
  exact if_neg (by obtain h | h := h <;> simp [h])
theorem State.islandReset_refused (hc : isCentral i = true) (ht : s.ctl.mode.traffic = true) :
    s.islandReset i = .refuse abortState := by
  have hmode : ¬ (s.ctl.mode = .halt ∨ s.ctl.mode = .config ∨ s.ctl.mode = .survey) := by
    have h := State.centralAlone_of_traffic ht
    simpa [State.centralAlone, and_assoc] using h
  unfold State.islandReset
  split
  · rfl
  · exact if_pos ⟨hc, by simpa using hmode⟩

/-! ## RETIRE (R452) -/

/-- The host holds the island out of service. -/
theorem State.setHeld_island (b : Bool) : (s.setHeld i b).island i = { s.island i with heldOut := b } := State.island_setIsland_self ..
/-- A link, TST, or a stash port that holds no tile, is put in reset and held there. -/
theorem State.retireAct_resets (h26 : 26 ≤ i) (ht : 42 ≤ i → i < 46 → (s.stashPort (i - 42)).tiles = [])
    (ho : s.outOfService i = false) : s.retireAct i = .ok ((s.setHeld i true).assertReset i) := by
  have hcentral : ¬ isCentral i = true := by
    rw [isCentral_iff]
    omega
  have htiles : ¬ (42 ≤ i ∧ i < 46 ∧ (!(((s.setHeld i true).stashPort (i - 42)).tiles.isEmpty)) = true) := by
    rintro ⟨h42, h46, h⟩
    have hnone : ((s.setHeld i true).stashPort (i - 42)).tiles = [] := ht h42 h46
    simp [hnone] at h
  unfold State.retireAct
  rw [if_neg hcentral, if_neg (by omega), if_neg (by omega), if_neg (by simp [ho])]
  exact if_neg htiles

/-! ## TEST and TEST_END (R456) -/

theorem State.testAct_begins (hc : isCentral i = false) (ho : s.outOfService i = true) (ht : (s.island i).testStatus ≠ 1)
    (h1 : (s.island tstIsland).inReset = false) (h2 : (s.island tstIsland).heldOut = false) : s.testAct i =
      .ok (s.setIsland i { s.island i with testStatus := 1, inReset := if i = tstIsland then false else (s.island i).inReset }) := by
  unfold State.testAct
  exact if_neg (by simp [hc, ho, ht, h1, h2])
theorem State.testEnd_ends (passed : Bool) (h47 : i < 47) (ht : (s.island i).testStatus = 1) (hm : s.ctl.mode ≠ .survey) :
    s.testEnd i passed = s.setIsland i { s.island i with
      testStatus := if passed then 2 else 3, inReset := (s.island i).inReset || decide (i = tstIsland) } := by
  unfold State.testEnd
  exact if_neg (by simp only [ht, hm, ne_eq, not_true_eq_false, or_false]; omega)

/-! ## RETURN (R458) -/

/-- An island that may leave reset is no longer held, and leaves it where it stands in it. -/
theorem State.returnAct_releases (h18 : 18 ≤ i) (hc : isCentral i = false) (ho : s.outOfService i = true)
    (ht : (s.island i).testStatus ≠ 1) (hm : ((s.setHeld i false).island i).mayRelease = true) :
    s.returnAct i = .ok ((s.setHeld i false).releaseReset i) := by
  rw [State.setHeld_island] at hm
  unfold State.returnAct
  dsimp only
  rw [if_neg (by simp [hc, ho, ht]), if_neg (by simp [hm]), if_neg (by omega)]
/-- Behind RETURN the island is neither in reset nor held. -/
theorem State.releaseReset_inReset (hm : (s.island i).mayRelease = true) : (s.releaseReset i).mem = s.mem ∧
    ((s.releaseReset i).island i).heldOut = (s.island i).heldOut ∧ ((s.releaseReset i).island i).inReset = false := by
  cases hr : (s.island i).inReset with
  | true =>
    have h := State.releaseReset_keepsIslands hr hm
    have hi := h.island i
    rw [State.island_setIsland_self] at hi
    exact ⟨h.mem, by rw [hi], by rw [hi]⟩
  | false =>
    have hsame : s.releaseReset i = s := by
      unfold State.releaseReset
      exact if_neg (by simp [hr])
    rw [hsame]
    exact ⟨rfl, rfl, hr⟩

/-- Settles O39: a reset or a RETIRE sets the island's bits before its work is cut off, which leaves them, and RETURN clears them before
the island goes on. -/
theorem islandServiceCommands : Obligations.IslandServiceCommands := by
  intro s r i
  refine ⟨fun h h0 _ hc => ?reset, fun h hc ht => ?refused, fun h h26 _ ht ho => ?retire, fun h hc ho ht h1 h2 => ?test,
    fun passed h47 ht hm => ?testEnd, fun h h18 _ hc ho ht hclk hpwr hrst hpd => ?back⟩
  case reset =>
    have hi := (s.assertReset_keepsIslands i).island i
    rw [State.island_setIsland_self] at hi
    refine ⟨_, exec_islandReset_writes h, ?_⟩
    rw [State.islandReset_resets h0 hc, State.reply_ok_island, hi]
  case refused =>
    rw [exec_islandReset_writes h, State.islandReset_refused hc ht]
    rfl
  case retire =>
    have reset := (s.setHeld i true).assertReset_keepsIslands i
    have hi := reset.island i
    rw [State.island_setIsland_self, State.setHeld_island] at hi
    refine ⟨_, exec_retire_writes h, ?_⟩
    rw [State.retireAct_resets h26 ht ho, State.reply_ok_mem, State.reply_ok_island, hi]
    exact ⟨reset.mem, rfl, rfl⟩
  case test =>
    refine ⟨_, exec_test_writes h, ?_⟩
    rw [State.testAct_begins hc ho ht h1 h2, State.reply_ok_mem, State.reply_ok_island, State.island_setIsland_self]
    exact ⟨rfl, rfl⟩
  case testEnd =>
    refine ⟨_, congrArg Host.Outcome.next (State.testEnd_ends passed h47 ht hm), rfl, ?_⟩
    rw [State.island_setIsland_self]
  case back =>
    have hm : ((s.setHeld i false).island i).mayRelease = true := by
      rw [State.setHeld_island]
      simp [Island.mayRelease, hclk, hpwr, hrst, hpd]
    obtain ⟨rmem, rheld, rreset⟩ := State.releaseReset_inReset hm
    refine ⟨_, exec_returnIsland_writes h, ?_⟩
    rw [State.returnAct_releases h18 hc ho ht hm, State.reply_ok_mem, State.reply_ok_island]
    exact ⟨rmem, by rw [rheld, State.setHeld_island], rreset⟩

end Sys2Proof.Machine
end
